-- ==== Sys2Proof/Word.lean ====
section
/-! DEFINITION. The 16-bit word of the register window, and the table type that holds a fixed number of like records. -/

namespace Sys2Proof

/-- A 16-bit word: every register of the window is one (section 0.6.2). -/
abbrev Word := BitVec 16

/-- The elements of `Fin n`, in rising order. Structural, so that a test can run it. -/
def allFin : (n : Nat) → List (Fin n)
  | 0 => []
  | n + 1 => 0 :: (allFin n).map Fin.succ

/-- A fixed number `n` of like records, numbered 0 to n - 1. -/
structure Table (α : Type) (n : Nat) where
  toList : List α
  size_eq : toList.length = n
deriving DecidableEq, Repr

/-- The table whose every record is `a`. -/
def Table.all (n : Nat) (a : α) : Table α n :=
  ⟨List.replicate n a, List.length_replicate⟩

/-- Record `i`. -/
def Table.get (t : Table α n) (i : Fin n) : α :=
  t.toList[i.val]'(by rw [t.size_eq]; exact i.isLt)

/-- The table with record `i` replaced. -/
def Table.set (t : Table α n) (i : Fin n) (a : α) : Table α n :=
  ⟨t.toList.set i.val a, by rw [List.length_set, t.size_eq]⟩

/-- The table with every record changed by `f`. -/
def Table.map (t : Table α n) (f : α → β) : Table β n :=
  ⟨t.toList.map f, by rw [List.length_map, t.size_eq]⟩

/-- The table of the values of `f`. -/
def Table.ofFn (f : Fin n → α) : Table α n :=
  ⟨(allFin n).map f, by
    rw [List.length_map]
    clear f
    induction n with
    | zero => rfl
    | succ n ih => simp [allFin, ih]⟩

/-- The sum of `f` over the records. -/
def Table.sum (t : Table α n) (f : α → Nat) : Nat :=
  (t.toList.map f).sum

/-- Does some record satisfy `p`? -/
def Table.any (t : Table α n) (p : α → Bool) : Bool :=
  t.toList.any p

end Sys2Proof
end

