-- ==== Sys2Proof/Config.lean ====
section
/-! DEFINITION. What the part fixes (sizes, codes at reset) and what the board fixes. No value of this spec is left free, so no constant here is opaque. -/

namespace Sys2Proof.Config

/-- The slots of the Message Store (R29). -/
def slots : Nat := 256

/-- The TICKDIV value after RESET (R90). -/
def resetTickdiv : Word := 625

/-- The depth at which a nested ACQUIRE is refused DEPTH (R9). -/
def maxDepth : Nat := 15

/-- The longest message, in words (R32). -/
def maxLength : Nat := 8

/-- The steps within which a deadlock walk ends (R13). -/
def walkSteps : Nat := 16

/-- DESIGN CHOICE (log 2): the supervisor tag in `State.reset`. The spec latches it from SUPV[3:0] (R146); RESET_RELEASE models the latch for any strap value. Unsafe for a claim that rests on the number 0. -/
def bootTag : Fin 16 := 0

end Sys2Proof.Config
end

