-- ==== Sys2Proof/Syntax.lean ====
section
/-! DEFINITION. The commands of spec/opcode_table.json, one constructor a row, and the small types that name what a command can speak of: agents, locks, queues, codes, registers of the window. -/

namespace Sys2Proof

/-- A tag, or the agent it names, 0 to 15 (section 0.5). -/
abbrev Agent := Fin 16

/-- A lock number, 0 to 63 (R1). -/
abbrev LockId := Fin 64

/-- A queue number, 0 to 31 (R33). -/
abbrev QueueId := Fin 32

/-- The byte offset of a register of the window (Tables 10-1 and 10-2). The bus carries A[7:1] only, so an offset is even. -/
abbrev Offset := BitVec 8

/-- The twelve agent commands of Table 6-3. -/
inductive AgentCmd
  | attach | detach | cancel
  | acquire | release | renew
  | send | receive | bind | unbind | watch | unwatch
deriving DecidableEq, Repr

/-- The nine supervisor commands of Table 9-1. -/
inductive SupCmd
  | lockConfig | queueOpen | queueClose | queuePurge | retire
  | quiesce | resume | ackViolation | clear
deriving DecidableEq, Repr

/-- The registers of the agent page (Table 10-1). -/
inductive AgentReg
  | cmd
  | operand (i : Fin 5)
  | res | resv | pstate | note | nen | ticklo | tickhi
  | shdr | slabel
  | stg (i : Fin 8)
  | dhdr | dlabel | dseq
  | dlv (i : Fin 8)
  | unused
deriving DecidableEq, Repr

/-- The registers of the supervisor page (Table 10-2). -/
inductive SupReg
  | scmd
  | operand (i : Fin 5)
  | sres | sresv | permit | tickdiv | free | unres | engine | quiet
  | vcap (i : Fin 3)
  | lockSel | lockInfo | lockLease | lockWait | lockMask
  | qsel | qinfo | qcap | qres | qwait | qbind | qseq
  | suptag
  | unused
deriving DecidableEq, Repr

/-- The commands: one constructor for each row of spec/opcode_table.json. `t` is the tag of the bus cycle; the operands of agent and supervisor commands stand in registers of the part, as the spec has it (R7, R54, R71, R149). A supervisor command is a write of SCMD from the supervisor tag (R148, log 14). -/
inductive Instr
  | attach (t : Agent)
  | detach (t : Agent)
  | cancel (t : Agent)
  | acquire (t : Agent)
  | release (t : Agent)
  | renew (t : Agent)
  | send (t : Agent)
  | receive (t : Agent)
  | bind (t : Agent)
  | unbind (t : Agent)
  | watch (t : Agent)
  | unwatch (t : Agent)
  | lockConfig
  | queueOpen
  | queueClose
  | queuePurge
  | retire
  | quiesce
  | resume
  | ackViolation
  | clear
  | noteRead (t : Agent)
  | nenWrite (t : Agent) (v : Word)
  | tickloRead (t : Agent)
  | tickhiRead (t : Agent)
  | tickdivWrite (v : Word)
  | supervisorPageWriteDenied (t : Agent) (off : Offset) (v : Word)
  | registerWrite (t : Agent) (off : Offset) (v : Word)
  | reset
  | resetRelease (straps : Agent)
  | freezeAssert
  | freezeRelease
  | tick
  | leaseCountdown
  | leaseExpiry (l : LockId)
  | deadlineCountdown
  | deadlineExpiry (a : Agent)
  | lockSweepStep
  | queueSweepStep
  | purgeStep
  | refclkPeriodCounted
  | unknownAgentCommandCode (t : Agent) (code : Word)
  | unknownSupervisorCommandCode (code : Word)
deriving DecidableEq, Repr

end Sys2Proof
end

