-- ==== Sys2Proof/Decode.lean ====
section
/-! DEFINITION. Decoding: the command a table word spells (no row of the table gives bits, so none), the command codes of Table 10-3, and the register a bus offset reaches (Tables 10-1 and 10-2). -/

namespace Sys2Proof

/-- The command that a word spells by the bits of spec/opcode_table.json. No row of that table gives any bits, so no word spells one. -/
def decodeTableWord (_nbits _w : Nat) : Option Instr :=
  none

/-- The code of an agent command (Table 6-3). -/
def AgentCmd.code : AgentCmd → Word
  | .attach => 0x01
  | .detach => 0x02
  | .cancel => 0x03
  | .acquire => 0x10
  | .release => 0x11
  | .renew => 0x12
  | .send => 0x20
  | .receive => 0x21
  | .bind => 0x22
  | .unbind => 0x23
  | .watch => 0x24
  | .unwatch => 0x25

/-- The agent command of a code written to CMD; every other code is unknown there (R108). -/
def AgentCmd.ofCode (w : Word) : Option AgentCmd :=
  match w.toNat with
  | 0x01 => some .attach
  | 0x02 => some .detach
  | 0x03 => some .cancel
  | 0x10 => some .acquire
  | 0x11 => some .release
  | 0x12 => some .renew
  | 0x20 => some .send
  | 0x21 => some .receive
  | 0x22 => some .bind
  | 0x23 => some .unbind
  | 0x24 => some .watch
  | 0x25 => some .unwatch
  | _ => none

/-- The code of a supervisor command (Table 9-1). -/
def SupCmd.code : SupCmd → Word
  | .lockConfig => 0x40
  | .queueOpen => 0x41
  | .queueClose => 0x42
  | .queuePurge => 0x43
  | .retire => 0x44
  | .quiesce => 0x45
  | .resume => 0x46
  | .ackViolation => 0x47
  | .clear => 0x4F

/-- The supervisor command of a code written to SCMD; every other code is unknown there (R148). -/
def SupCmd.ofCode (w : Word) : Option SupCmd :=
  match w.toNat with
  | 0x40 => some .lockConfig
  | 0x41 => some .queueOpen
  | 0x42 => some .queueClose
  | 0x43 => some .queuePurge
  | 0x44 => some .retire
  | 0x45 => some .quiesce
  | 0x46 => some .resume
  | 0x47 => some .ackViolation
  | 0x4F => some .clear
  | _ => none

/-- The even offset on A[7:1]: the bus carries no A0 (section 10.1, log 15). -/
def Offset.even (off : Offset) : Offset :=
  off &&& 0xFE

/-- Does the offset lie in the supervisor page (A[7] high, R159)? -/
def Offset.supervisorPage (off : Offset) : Bool :=
  off.getLsbD 7

/-- The register of the agent page at an offset with A[7] low (Table 10-1). -/
def AgentReg.ofOffset (off : Offset) : AgentReg :=
  match (Offset.even off).toNat with
  | 0x00 => .cmd
  | 0x02 => .operand 0
  | 0x04 => .operand 1
  | 0x06 => .operand 2
  | 0x08 => .operand 3
  | 0x0A => .operand 4
  | 0x0C => .res
  | 0x0E => .resv
  | 0x10 => .pstate
  | 0x12 => .note
  | 0x14 => .nen
  | 0x16 => .ticklo
  | 0x18 => .tickhi
  | 0x1A => .shdr
  | 0x1C => .slabel
  | 0x1E => .stg 0
  | 0x20 => .stg 1
  | 0x22 => .stg 2
  | 0x24 => .stg 3
  | 0x26 => .stg 4
  | 0x28 => .stg 5
  | 0x2A => .stg 6
  | 0x2C => .stg 7
  | 0x2E => .dhdr
  | 0x30 => .dlabel
  | 0x32 => .dseq
  | 0x34 => .dlv 0
  | 0x36 => .dlv 1
  | 0x38 => .dlv 2
  | 0x3A => .dlv 3
  | 0x3C => .dlv 4
  | 0x3E => .dlv 5
  | 0x40 => .dlv 6
  | 0x42 => .dlv 7
  | _ => .unused

/-- The register of the supervisor page at an offset with A[7] high (Table 10-2). -/
def SupReg.ofOffset (off : Offset) : SupReg :=
  match (Offset.even off).toNat with
  | 0x80 => .scmd
  | 0x82 => .operand 0
  | 0x84 => .operand 1
  | 0x86 => .operand 2
  | 0x88 => .operand 3
  | 0x8A => .operand 4
  | 0x8C => .sres
  | 0x8E => .sresv
  | 0x90 => .permit
  | 0x92 => .tickdiv
  | 0x94 => .free
  | 0x96 => .unres
  | 0x98 => .engine
  | 0x9A => .quiet
  | 0x9C => .vcap 0
  | 0x9E => .vcap 1
  | 0xA0 => .vcap 2
  | 0xA2 => .lockSel
  | 0xA4 => .lockInfo
  | 0xA6 => .lockLease
  | 0xA8 => .lockWait
  | 0xAA => .lockMask
  | 0xAC => .qsel
  | 0xAE => .qinfo
  | 0xB0 => .qcap
  | 0xB2 => .qres
  | 0xB4 => .qwait
  | 0xB6 => .qbind
  | 0xB8 => .qseq
  | 0xBA => .suptag
  | _ => .unused

end Sys2Proof
end

