-- ==== Sys2Proof/Machine/State.lean ====
section
/-! DEFINITION. The state of the part as plain data, block by block (section 0.4.1), the reasons a step can stop, and the state after RESET. -/

namespace Sys2Proof.Machine

/-- No command of this part faults: each ends in a result code or changes nothing (INVENTORY.md, Faults). -/
inductive Fault
deriving DecidableEq, Repr

/-- Why a step could be refused. -/
inductive Refusal
  /-- Raised by an arm of `exec` that has no meaning yet; no arm raises it now. Safe: nothing is claimed of such a command. -/
  | notModelled (mnemonic : String)
deriving DecidableEq, Repr

/-- The mode operand of ACQUIRE, SEND and RECEIVE (R7, R54, R71). -/
inductive Mode
  | nowait
  | wait
deriving DecidableEq, Repr

/-- The notice kinds of Table 7-1. -/
inductive Notice
  | waitDone
  | leaseLost
  | watch (k : Fin 4)
  | violation
  | jobDone
  | storeEmpty
deriving DecidableEq, Repr

/-! ### Messages (R32, Table 2-2) -/

inductive Urgency
  | normal
  | urgent
deriving DecidableEq, Repr

/-- A message record without a sequence number. Its length is the length of the payload, 0 to 8 words. -/
structure Message where
  source : Agent
  urgency : Urgency
  label : Word
  payload : List Word
  reply : Option QueueId
deriving DecidableEq, Repr

/-- A message in a slot, with the sequence number the queue gave it (R35). -/
structure Stored where
  msg : Message
  seq : Word
deriving DecidableEq, Repr

/-! ### The Lock Table (R1, Table 1-1) -/

/-- What a HELD lock has: its holder, the depth (1 to 15) and the lease remaining (absent when the lock has no lease). -/
structure Hold where
  holder : Agent
  depth : Nat
  lease : Option Nat
deriving DecidableEq, Repr

/-- A lock record. The lock is FREE when `hold` is absent, and HELD otherwise. -/
structure Lock where
  hold : Option Hold
  leaseLength : Word
  useMask : Word
  waiters : List Agent
  broken : Bool
deriving DecidableEq, Repr

/-! ### The Queue Table (R33, Table 2-3) -/

/-- What an OPEN or PURGING queue has and a CLOSED queue lacks. -/
structure Limits where
  capacity : Nat
  reserve : Nat
deriving DecidableEq, Repr

/-- CLOSED, OPEN, or PURGING with its close-after-purge mark. -/
inductive QueueState
  | closed
  | opened (lim : Limits)
  | purging (lim : Limits) (closeAfter : Bool)
deriving DecidableEq, Repr

/-- An entry of a receiver wait list (R36). -/
structure Receiver where
  agent : Agent
  label : Word
  mask : Word
deriving DecidableEq, Repr

structure Queue where
  state : QueueState
  sendMask : Word
  recvMask : Word
  bound : Option Agent
  nextSeq : Word
  messages : List Stored
  receivers : List Receiver
deriving DecidableEq, Repr

/-! ### The agent contexts (R104, Table 6-1) -/

/-- What a pending command waits for (R114, Table 6-4): its kind, its object, and what a SEND or RECEIVE carries. -/
inductive Want
  | acquire (l : LockId)
  | send (q : QueueId) (m : Message)
  | receive (q : QueueId) (label mask : Word)
deriving DecidableEq, Repr

/-- A pending record; the deadline remaining is absent for a timeout operand of 0. -/
structure Wait where
  want : Want
  deadline : Option Nat
deriving DecidableEq, Repr

/-- The state of an agent (R105). WAITING is ATTACHED with a pending record, so the record stands in that state and in no other. -/
inductive Port
  | detached
  | attached
  | waiting (w : Wait)
  | retiring
deriving DecidableEq, Repr

/-- The result codes of Table 6-6. -/
inductive ResCode
  | none | done | pending | timeout | cancelled | retired | cleared
  | busy | notAttached | retiring | badCommand | badObject | badOperand | denied
  | notHolder | depth | deadlock | wouldWait | quiesced | closed | purging
  | inUse | holding | nothingPending | duplicate | noRoom
deriving DecidableEq, Repr

/-- RES and RESV: the code, the value and the three flags of the latest outcome (R117, R118). -/
structure Result where
  code : ResCode
  value : Word
  broken : Bool
  urgent : Bool
  reply : Bool
deriving DecidableEq, Repr

/-- The staging area (R53). -/
structure Staging where
  length : BitVec 4
  urgency : Urgency
  replyPresent : Bool
  replyQueue : BitVec 6
  label : Word
  payload : Table Word 8
deriving DecidableEq, Repr

/-- The delivery area (R83); the reply-present mark and the reply queue are one optional queue. -/
structure Delivery where
  source : Agent
  length : Nat
  urgency : Urgency
  reply : Option QueueId
  label : Word
  seq : Word
  payload : Table Word 8
deriving DecidableEq, Repr

/-- The tick latch (R94). -/
structure Latch where
  valid : Bool
  high : Word
deriving DecidableEq, Repr

/-- An agent context. `notices` and `enable` are sets of notice kinds in the layout of NOTE and NEN (Table 10-7). -/
structure AgentCtx where
  port : Port
  operands : Table Word 5
  res : Result
  staging : Staging
  delivery : Delivery
  notices : Word
  enable : Word
  watch : Table (Option QueueId) 4
  latch : Latch
deriving DecidableEq, Repr

/-! ### The Time Base (R89, R93) -/

/-- `lockDue` and `portDue` count the ticks that the Time Base has produced and that the Lock Table, respectively the Agent Ports, have not yet taken (R96, log 9). -/
structure TimeBase where
  tickdiv : Word
  counter : Nat
  length : Nat
  count : BitVec 32
  lockDue : Nat
  portDue : Nat
deriving DecidableEq, Repr

/-! ### The Maintenance Engine (R132, R133) -/

inductive Job
  | retire (a : Agent)
  | purge (q : QueueId)
deriving DecidableEq, Repr

/-- The engine states of Table 8-1, each with its object and its cursor. -/
inductive EngineState
  | idle
  | retireLocks (r : Agent) (c : LockId)
  | retireQueues (r : Agent) (c : QueueId)
  | purge (q : QueueId)
deriving DecidableEq, Repr

structure Engine where
  jobs : List Job
  state : EngineState
deriving DecidableEq, Repr

/-! ### The Supervision Unit (chapter 9) -/

/-- What the violation capture records (Table 9-2): kind and reason follow from which of the two it is. -/
inductive ViolationEvent
  | command (c : AgentCmd) (object : BitVec 6)
  | pageWrite (off : Offset)
deriving DecidableEq, Repr

/-- A full violation capture. -/
structure Capture where
  tag : Agent
  event : ViolationEvent
  more : Bool
deriving DecidableEq, Repr

structure Supervision where
  tag : Agent
  operands : Table Word 5
  sres : ResCode
  sresv : Word
  permit : Word
  quiesce : Bool
  capture : Option Capture
  lockSel : Word
  queueSel : Word
deriving DecidableEq, Repr

/-! ### Pins and the Bus Interface Unit (R158, R163, R164) -/

/-- The levels of RESET# (held low or not) and FREEZE (asserted or not). -/
structure Pins where
  resetHeld : Bool
  frozen : Bool
deriving DecidableEq, Repr

/-- The levels that the BIU drives on RDY and D[15:0], each absent while it is not driven (R158). -/
structure BusLevels where
  rdy : Option Bool
  data : Option Word
deriving DecidableEq, Repr

/-- The BIU. `levels` is what it drove through the latest cycle, from the assertion of SEL# on, oldest first; the last entry, after SEL# is released, is what it drives now (R158, log 4). `abandoned` is the masters' own: for the cycles to come, in order, whether the master releases SEL# before RDY rises; past its end none does (log 18). -/
structure BusUnit where
  levels : List BusLevels
  abandoned : List Bool
deriving DecidableEq, Repr

/-! ### The whole part -/

structure State where
  agents : Table AgentCtx 16
  locks : Table Lock 64
  queues : Table Queue 32
  freeCount : Nat
  senderWait : List Agent
  time : TimeBase
  engine : Engine
  sup : Supervision
  pins : Pins
  bus : BusUnit
  /-- The commands that wait, first in, first out: the model's own (log 1). -/
  pending : List Instr
deriving DecidableEq, Repr

/-! ### The state after RESET -/

/-- While SEL# is released the BIU drives neither RDY nor D (R158). -/
def BusLevels.released : BusLevels :=
  { rdy := none, data := none }

/-- A lock after RESET (R5). -/
def Lock.initial : Lock :=
  { hold := none, leaseLength := 0, useMask := 0xFFFF, waiters := [], broken := false }

/-- A queue after RESET and after CLEAR (R51, R52). -/
def Queue.initial : Queue :=
  { state := .closed, sendMask := 0xFFFF, recvMask := 0xFFFF, bound := none, nextSeq := 0,
    messages := [], receivers := [] }

/-- The staging area when it is cleared (R53). -/
def Staging.cleared : Staging :=
  { length := 0, urgency := .normal, replyPresent := false, replyQueue := 0, label := 0,
    payload := .all 8 0 }

/-- The delivery area when it is cleared (R85). -/
def Delivery.cleared : Delivery :=
  { source := 0, length := 0, urgency := .normal, reply := none, label := 0, seq := 0,
    payload := .all 8 0 }

/-- The tick latch when it is made invalid with its latched half 0 (R95). -/
def Latch.cleared : Latch :=
  { valid := false, high := 0 }

/-- An agent context after RESET (R120). -/
def AgentCtx.initial : AgentCtx :=
  { port := .detached, operands := .all 5 0,
    res := { code := .none, value := 0, broken := false, urgent := false, reply := false },
    staging := .cleared, delivery := .cleared, notices := 0, enable := 0,
    watch := .all 4 none, latch := .cleared }

/-- The Time Base after RESET (R102). -/
def TimeBase.initial : TimeBase :=
  { tickdiv := Config.resetTickdiv, counter := 0, length := 10000, count := 0,
    lockDue := 0, portDue := 0 }

/-- The Supervision Unit after RESET (Table 9-5); the tag is the board's (log 2). -/
def Supervision.initial : Supervision :=
  { tag := Config.bootTag, operands := .all 5 0, sres := .none, sresv := 0, permit := 0,
    quiesce := false, capture := none, lockSel := 0, queueSel := 0 }

/-- The part right after RESET, RESET# having risen (R5, R51, R102, R120, R130, R145, Table 9-5; log 2), with no command waiting. -/
def State.reset : State :=
  { agents := .all 16 .initial, locks := .all 64 .initial, queues := .all 32 .initial,
    freeCount := Config.slots, senderWait := [], time := .initial,
    engine := { jobs := [], state := .idle }, sup := .initial,
    pins := { resetHeld := false, frozen := false },
    bus := { levels := [.released], abandoned := [] }, pending := [] }

end Sys2Proof.Machine
end

