-- ==== Sys2Proof/Machine/Flags.lean ====
section
/-! DEFINITION. The notice kinds as bits, the results a command or a completion gives with their value and flags, the numbers of the result codes, and the packing of RES and RESV. -/

namespace Sys2Proof.Machine

/-! ### Notice kinds (Table 10-7) -/

/-- The bit position of a notice kind in NOTE and NEN. -/
def Notice.position : Notice → Nat
  | .waitDone => 0
  | .leaseLost => 1
  | .watch k => k.val + 2
  | .violation => 8
  | .jobDone => 9
  | .storeEmpty => 10

/-- The set that holds one kind. -/
def Notice.bit (n : Notice) : Word :=
  BitVec.ofNat 16 (2 ^ n.position)

/-- The bits of NOTE and NEN that name a kind: [5:0] and [10:8] (R162). -/
def noticeKinds : Word := 0x073F

/-- Does a notice set or a notice enable hold the kind? -/
def holdsNotice (set : Word) (n : Notice) : Bool :=
  set.getLsbD n.position

/-- The agent set of a 16-bit mask: bit n stands for agent n (R27, R39, R150). -/
def admits (mask : Word) (a : Agent) : Bool :=
  mask.getLsbD a.val

/-! ### Results (R117, R118) -/

/-- An outcome other than DONE: the value 0 and no flags (R109, R118). -/
def Result.plain (c : ResCode) : Result :=
  { code := c, value := 0, broken := false, urgent := false, reply := false }

/-- DONE with a value and no flags (Table 6-7). -/
def Result.doneWith (v : Word) : Result :=
  { code := .done, value := v, broken := false, urgent := false, reply := false }

/-- DONE with value 1 for a grant, with the BROKEN flag as given (R10, R15). -/
def Result.granted (broken : Bool) : Result :=
  { code := .done, value := 1, broken := broken, urgent := false, reply := false }

/-- DONE for a RECEIVE that delivers: the length, URGENT-delivered and REPLY-present (R84). -/
def Result.delivered (m : Message) : Result :=
  { code := .done, value := BitVec.ofNat 16 m.payload.length, broken := false,
    urgent := m.urgency == .urgent, reply := m.reply.isSome }

/-- The number of a result code (Table 6-6); 7 names none. -/
def ResCode.number : ResCode → Word
  | .none => 0
  | .done => 1
  | .pending => 2
  | .timeout => 3
  | .cancelled => 4
  | .retired => 5
  | .cleared => 6
  | .busy => 8
  | .notAttached => 9
  | .retiring => 10
  | .badCommand => 11
  | .badObject => 12
  | .badOperand => 13
  | .denied => 14
  | .notHolder => 15
  | .depth => 16
  | .deadlock => 17
  | .wouldWait => 18
  | .quiesced => 19
  | .closed => 20
  | .purging => 21
  | .inUse => 22
  | .holding => 23
  | .nothingPending => 24
  | .duplicate => 25
  | .noRoom => 26

/-- A flag as a field of a register, at the bit position given. -/
def flagAt (b : Bool) (pos : Nat) : Word :=
  if b then BitVec.ofNat 16 (2 ^ pos) else 0

/-- A number as a field of a register, its low bit at the position given. -/
def fieldAt (v pos : Nat) : Word :=
  BitVec.ofNat 16 (v * 2 ^ pos)

/-- RESV (Table 10-4): a sequence number uses all sixteen bits and has no flags; every other value is at most 15. -/
def Result.resv (r : Result) : Word :=
  r.value ||| flagAt r.broken 15 ||| flagAt r.urgent 14 ||| flagAt r.reply 13

end Sys2Proof.Machine
end

