-- ==== Sys2Proof/Machine/Ops.lean ====
section
/-! DEFINITION. The named operations over the state that the meanings share: one access to each record, results, notices, violations, waits and their endings, the store counts, the Job List, and the answer of a bus cycle. -/

namespace Sys2Proof.Machine

/-! ### Records -/

/-- The context of agent `a` (R104). -/
def State.agent (s : State) (a : Agent) : AgentCtx :=
  s.agents.get a

def State.setAgent (s : State) (a : Agent) (c : AgentCtx) : State :=
  { s with agents := s.agents.set a c }

/-- The record of lock `l` (R1). -/
def State.lock (s : State) (l : LockId) : Lock :=
  s.locks.get l

def State.setLock (s : State) (l : LockId) (k : Lock) : State :=
  { s with locks := s.locks.set l k }

/-- The record of queue `q` (R33). -/
def State.queue (s : State) (q : QueueId) : Queue :=
  s.queues.get q

def State.setQueue (s : State) (q : QueueId) (k : Queue) : State :=
  { s with queues := s.queues.set q k }

/-- OPA to OPE of agent `t`, numbered 0 to 4 (R107). -/
def State.operand (s : State) (t : Agent) (i : Fin 5) : Word :=
  (s.agent t).operands.get i

/-- SOPA to SOPE, numbered 0 to 4 (R149). -/
def State.supOperand (s : State) (i : Fin 5) : Word :=
  s.sup.operands.get i

/-! ### Results and notices -/

/-- Write RES and RESV of agent `a` together (R118). -/
def State.setResult (s : State) (a : Agent) (r : Result) : State :=
  s.setAgent a { s.agent a with res := r }

/-- A refusal: its code in RES with the value 0 and no flags, nothing else (R109). -/
def State.refuse (s : State) (t : Agent) (c : ResCode) : State :=
  s.setResult t (.plain c)

/-- DONE with a value and no flags (R118). -/
def State.done (s : State) (t : Agent) (v : Word) : State :=
  s.setResult t (.doneWith v)

/-- The outcome of a supervisor command: its code in SRES, 0 in SRESV (R148, R149). -/
def State.supResult (s : State) (c : ResCode) : State :=
  { s with sup := { s.sup with sres := c, sresv := 0 } }

/-- Make a kind present in the notice set of agent `a` (R123). -/
def State.setNotice (s : State) (a : Agent) (n : Notice) : State :=
  s.setAgent a { s.agent a with notices := (s.agent a).notices ||| n.bit }

/-- ATNn# is asserted exactly when the notice set and the notice enable share a kind (R129). -/
def State.attention (s : State) (a : Agent) : Bool :=
  (s.agent a).notices &&& (s.agent a).enable != 0

/-! ### The violation capture (R153, R154) -/

/-- Fill an empty capture and set VIOLATION for the supervisor; set the more flag of a full one. -/
def State.recordViolation (s : State) (t : Agent) (e : ViolationEvent) : State :=
  match s.sup.capture with
  | none =>
    State.setNotice { s with sup := { s.sup with capture := some { tag := t, event := e, more := false } } }
      s.sup.tag .violation
  | some c => { s with sup := { s.sup with capture := some { c with more := true } } }

/-- The refusal DENIED, recorded with the tag, the command and the object (R109, R153). -/
def State.deny (s : State) (t : Agent) (c : AgentCmd) (object : Nat) : State :=
  (s.refuse t .denied).recordViolation t (.command c (BitVec.ofNat 6 object))

/-! ### Pending commands (R114, R115) -/

/-- A timeout operand as a deadline remaining: 0 gives none (R114). -/
def deadlineOf (timeout : Word) : Option Nat :=
  if timeout = 0 then none else some timeout.toNat

/-- Make the pending record of `t`: its state becomes WAITING and RES reads PENDING (R110). The owner places the agent in its wait list. -/
def State.startWait (s : State) (t : Agent) (w : Want) (timeout : Word) : State :=
  s.setAgent t { s.agent t with
    port := .waiting { want := w, deadline := deadlineOf timeout }, res := .plain .pending }

/-- The Agent Port's part of a completion other than by CANCEL, RETIRE or CLEAR: the result, the state ATTACHED without a pending record, and WAIT_DONE (R115, R124). -/
def State.endWait (s : State) (a : Agent) (r : Result) : State :=
  s.setAgent a { s.agent a with
    port := .attached, res := r, notices := (s.agent a).notices ||| Notice.bit .waitDone }

/-- Remove `a` from the Sender Wait List; the entries behind it keep their order (R37). -/
def State.dropSender (s : State) (a : Agent) : State :=
  { s with senderWait := s.senderWait.filter (· != a) }

/-- Remove `a` from the one wait list that belongs to its pending command (R114); an agent with none stands in none. -/
def State.leaveWaitList (s : State) (a : Agent) : State :=
  match (s.agent a).port with
  | .waiting w =>
    match w.want with
    | .acquire l => s.setLock l { s.lock l with waiters := (s.lock l).waiters.filter (· != a) }
    | .send _ _ => s.dropSender a
    | .receive q _ _ =>
      s.setQueue q { s.queue q with receivers := (s.queue q).receivers.filter (·.agent != a) }
  | _ => s

/-! ### Store counts (R29 to R31) -/

/-- The number of messages the queue holds in slots (section 0.5). -/
def Queue.held (k : Queue) : Nat :=
  k.messages.length

/-- The part of the reserve that the queue has not used; a CLOSED queue has none (R30). -/
def Queue.unusedReserve (k : Queue) : Nat :=
  match k.state with
  | .closed => 0
  | .opened lim => lim.reserve - k.held
  | .purging lim _ => lim.reserve - k.held

/-- The unreserved free count (R30). -/
def State.unreserved (s : State) : Nat :=
  s.freeCount - s.queues.sum Queue.unusedReserve

/-- STORE_EMPTY is set for the supervisor when the whole event brought the unreserved free count from above 0 to 0 (R31). -/
def reckonStoreEmpty (before after : State) : State :=
  if 0 < before.unreserved ∧ after.unreserved = 0 then
    after.setNotice after.sup.tag .storeEmpty
  else after

/-! ### The Job List (R132, R133) -/

/-- The first engine state of a job. -/
def Job.firstState : Job → EngineState
  | .retire a => .retireLocks a 0
  | .purge q => .purge q

/-- The engine state for a Job List at the start of its head: IDLE when it is empty. -/
def engineStart (jobs : List Job) : EngineState :=
  match jobs with
  | [] => .idle
  | j :: _ => j.firstState

/-- A job joins the tail; if the list was empty the engine leaves IDLE in the same event (R133). -/
def State.addJob (s : State) (j : Job) : State :=
  { s with engine :=
    { jobs := s.engine.jobs ++ [j],
      state := if s.engine.jobs.isEmpty then j.firstState else s.engine.state } }

/-- The current job leaves, JOB_DONE is set for the supervisor, and the engine enters the next job's first state or IDLE (R133, R126). -/
def State.endJob (s : State) : State :=
  State.setNotice
    { s with engine := { jobs := s.engine.jobs.tail, state := engineStart s.engine.jobs.tail } }
    s.sup.tag .jobDone

/-! ### Bus cycles and events of the part -/

/-- SEL# is asserted and RDY is held low (R158). -/
def BusLevels.waiting : BusLevels :=
  { rdy := some false, data := none }

/-- RDY is raised, with the value returned on D for a read (R158). -/
def BusLevels.answer (data : Option Word) : BusLevels :=
  { rdy := some true, data := data }

/-- A cycle from the assertion of SEL# to its release, with what the BIU drove between the two (R158). -/
def State.cycle (s : State) (answer : List BusLevels) : State :=
  { s with bus :=
    { levels := BusLevels.waiting :: answer ++ [BusLevels.released],
      abandoned := s.bus.abandoned.tail } }

/-- The cycle of a part in reset: RDY is held low until SEL# is released, and D is not driven (R163). -/
def State.unanswered (s : State) : State :=
  s.cycle []

/-- Does the master of the cycle in hand release SEL# before RDY has risen (R158, log 18)? -/
def State.abandonsCycle (s : State) : Bool :=
  s.bus.abandoned.headD false

/-- The end of a cycle whose access has been taken: RDY rises, with the value on D for a read, and SEL# is released; a master that released it before has abandoned the answer and not the access (R158). -/
def State.answerCycle (s : State) (data : Option Word) : State :=
  s.cycle (if s.abandonsCycle then [] else [.answer data])

/-- RDY rises for a write (R158). -/
def State.answerWrite (s : State) : State :=
  s.answerCycle none

/-- RDY rises for a read, with the value on D (R158). -/
def State.answerRead (s : State) (v : Word) : State :=
  s.answerCycle (some v)

/-- A write cycle: the access is taken whole and then RDY rises (R158); a part in reset does not answer (R163). -/
def writeCycle (s : State) (access : State → State) : Host.Outcome State Fault Refusal :=
  if s.pins.resetHeld then .next s.unanswered else .next (access s).answerWrite

/-- A read cycle that returns `value s` and has the side effect `access` (R158, R161). -/
def readCycle (s : State) (value : State → Word) (access : State → State) :
    Host.Outcome State Fault Refusal :=
  if s.pins.resetHeld then .next s.unanswered else .next ((access s).answerRead (value s))

/-- An event of one of the part's blocks: while RESET# is held low none is taken (R163, log 5). -/
def blockEvent (s : State) (event : State → State) : Host.Outcome State Fault Refusal :=
  if s.pins.resetHeld then .next s else .next (event s)

end Sys2Proof.Machine
end

