-- ==== Sys2Proof/Machine/Operands.lean ====
section
/-! DEFINITION. The operand forms: the mode, the object in OPA or SOPA, the message captured from the staging area, the filter of a RECEIVE, the staging header, and the common checks of a write to CMD. -/

namespace Sys2Proof.Machine

/-- The mode in OPB: 0 NOWAIT, 1 WAIT, anything else out of range (R7, R54, R71). -/
def modeOf (w : Word) : Option Mode :=
  if w = 0 then some .nowait else if w = 1 then some .wait else none

/-- A number operand as an object number below `n`, if it is in range. -/
def objectOf (n : Nat) (w : Word) : Option (Fin n) :=
  if h : w.toNat < n then some ⟨w.toNat, h⟩ else none

/-! ### The message of a SEND (R53, R54) -/

/-- The range checks of a captured message: a length of at most 8, and a reply queue of at most 31 when the mark is set (R55). -/
def Staging.inRange (g : Staging) : Bool :=
  decide (g.length.toNat ≤ Config.maxLength) && (!g.replyPresent || decide (g.replyQueue.toNat < 32))

/-- The message captured from the staging area of `t`: the tag as source, the first length-many payload words, the reply queue absent when the mark is clear (R54). -/
def Staging.capture (g : Staging) (t : Agent) : Message :=
  { source := t, urgency := g.urgency, label := g.label,
    payload := g.payload.toList.take g.length.toNat,
    reply := if g.replyPresent then objectOf 32 (g.replyQueue.setWidth 16) else none }

/-- SHDR as written: the fields of Table 10-6, the other bits ignored (R162). -/
def Staging.writeHeader (g : Staging) (w : Word) : Staging :=
  { g with
    length := w.extractLsb' 0 4
    urgency := if w.getLsbD 4 then .urgent else .normal
    replyPresent := w.getLsbD 5
    replyQueue := w.extractLsb' 6 6 }

/-! ### The filter of a RECEIVE (R72) -/

/-- The label agrees with the match label wherever the match mask has a one. -/
def labelMatches (label mask : Word) (m : Message) : Bool :=
  (m.label ^^^ label) &&& mask == 0

/-! ### The delivery area (R83) -/

/-- Word `i` of a delivered payload: 0 at and beyond the length. -/
def payloadWord (m : Message) (i : Fin 8) : Word :=
  m.payload.getD i.val 0

/-- The delivery area as a delivery writes it, whole. -/
def Delivery.ofStored (d : Stored) : Delivery :=
  { source := d.msg.source, length := d.msg.payload.length, urgency := d.msg.urgency,
    reply := d.msg.reply, label := d.msg.label, seq := d.seq,
    payload := .ofFn (payloadWord d.msg) }

/-! ### The checks common to every write of CMD (R108) -/

/-- The first four checks, in their order, on the state of the agent and the code written (`none`: not one of the twelve). The refusal, if one applies. -/
def portCheck (p : Port) (c : Option AgentCmd) : Option ResCode :=
  match p with
  | .retiring => some .retiring
  | .detached => if c = some .attach then none else some .notAttached
  | .waiting _ => if c = some .cancel then none else some .busy
  | .attached => if c.isNone then some .badCommand else none

/-- A write to CMD: the common checks, then the owner's answer in the same event (R108, R110). -/
def acceptCommand (s : State) (t : Agent) (c : Option AgentCmd) (owner : State → State) : State :=
  match portCheck (s.agent t).port c with
  | some code => s.refuse t code
  | none => owner s

/-- The fifth check for a command that names a lock: OPA above 63 is refused BAD_OBJECT (R108). -/
def withLock (s : State) (t : Agent) (f : LockId → State) : State :=
  match objectOf 64 (s.operand t 0) with
  | some l => f l
  | none => s.refuse t .badObject

/-- The fifth check for a command that names a queue: OPA above 31 is refused BAD_OBJECT (R108). -/
def withQueue (s : State) (t : Agent) (f : QueueId → State) : State :=
  match objectOf 32 (s.operand t 0) with
  | some q => f q
  | none => s.refuse t .badObject

/-- The object of a supervisor command in SOPA, refused BAD_OBJECT when it is out of range (R27, R38, R134). -/
def withSupObject (s : State) (n : Nat) (f : Fin n → State) : State :=
  match objectOf n (s.supOperand 0) with
  | some x => f x
  | none => s.supResult .badObject

end Sys2Proof.Machine
end

