-- ==== Sys2Proof/Machine/Locks.lean ====
section
/-! DEFINITION. The Lock Table (chapter 1): ACQUIRE with its deadlock check, RELEASE, RENEW, the grant to a waiter, the loss of a lock, and LOCK_CONFIG. -/

namespace Sys2Proof.Machine

/-! ### Leases, grants and losses -/

/-- The lease remaining at a start or restart: the lease length, or absent when that is 0 (R18). -/
def Lock.leaseStart (k : Lock) : Option Nat :=
  if k.leaseLength = 0 then none else some k.leaseLength.toNat

/-- The record of a lock just granted to `a`: depth 1, a new lease, the broken mark clear (R10, R15). -/
def Lock.grantTo (k : Lock) (a : Agent) : Lock :=
  { k with hold := some { holder := a, depth := 1, lease := k.leaseStart }, broken := false }

/-- The lock passes from its holder: to the head waiter, whose ACQUIRE completes DONE with WAIT_DONE and with BROKEN after a loss (R15), or, when nobody waits, it becomes FREE, its broken mark set after a loss and clear otherwise (R17, R20). -/
def passLock (s : State) (l : LockId) (lost : Bool) : State :=
  match (s.lock l).waiters with
  | [] => s.setLock l { s.lock l with hold := none, broken := lost }
  | w :: rest =>
    (s.setLock l { (s.lock l).grantTo w with waiters := rest }).endWait w (.granted lost)

/-- The loss of a lock, at whatever depth (R20). -/
def loseLock (s : State) (l : LockId) : State :=
  passLock s l true

/-! ### The deadlock check (R13) -/

/-- The lock for which the agent has a pending ACQUIRE, if it has one. -/
def AgentCtx.awaitedLock (c : AgentCtx) : Option LockId :=
  match c.port with
  | .waiting w =>
    match w.want with
    | .acquire l => some l
    | _ => none
  | _ => none

/-- The walk from agent `a` along the chain of holders, at most `steps` agents long: does it reach `requester`? -/
def walkReaches (s : State) (requester : Agent) : (steps : Nat) → (a : Agent) → Bool
  | 0, _ => false
  | n + 1, a =>
    if a = requester then true
    else
      match (s.agent a).awaitedLock with
      | none => false
      | some l =>
        match (s.lock l).hold with
        | none => false
        | some h => walkReaches s requester n h.holder

/-! ### ACQUIRE, RELEASE, RENEW -/

/-- The holder's own ACQUIRE (R9). -/
def acquireNested (s : State) (t : Agent) (l : LockId) (h : Hold) : State :=
  if Config.maxDepth ≤ h.depth then s.refuse t .depth
  else
    (s.setLock l { s.lock l with
      hold := some { h with depth := h.depth + 1, lease := (s.lock l).leaseStart } }).done t
      (BitVec.ofNat 16 (h.depth + 1))

/-- An ACQUIRE of a FREE lock (R10). -/
def acquireFree (s : State) (t : Agent) (l : LockId) : State :=
  (s.setLock l ((s.lock l).grantTo t)).setResult t (.granted (s.lock l).broken)

/-- An ACQUIRE in WAIT mode of a lock HELD by another agent (R12). -/
def acquireWait (s : State) (t : Agent) (l : LockId) (h : Hold) : State :=
  if walkReaches s t Config.walkSteps h.holder then s.refuse t .deadlock
  else if s.sup.quiesce then s.refuse t .quiesced
  else
    (s.setLock l { s.lock l with waiters := (s.lock l).waiters ++ [t] }).startWait t
      (.acquire l) (s.operand t 2)

/-- An ACQUIRE handed to the Lock Table, checked in the order of R8. -/
def acquire (s : State) (t : Agent) (l : LockId) : State :=
  match modeOf (s.operand t 1) with
  | none => s.refuse t .badOperand
  | some mode =>
    if !admits (s.lock l).useMask t then s.deny t .acquire l.val
    else
      match (s.lock l).hold with
      | none => acquireFree s t l
      | some h =>
        if h.holder = t then acquireNested s t l h
        else
          match mode with
          | .nowait => s.refuse t .wouldWait
          | .wait => acquireWait s t l h

/-- A RELEASE handed to the Lock Table (R16, R17). -/
def release (s : State) (t : Agent) (l : LockId) : State :=
  match (s.lock l).hold with
  | none => s.refuse t .notHolder
  | some h =>
    if h.holder ≠ t then s.refuse t .notHolder
    else if 1 < h.depth then
      (s.setLock l { s.lock l with hold := some { h with depth := h.depth - 1 } }).done t
        (BitVec.ofNat 16 (h.depth - 1))
    else (passLock s l false).done t 0

/-- A RENEW handed to the Lock Table (R19). -/
def renew (s : State) (t : Agent) (l : LockId) : State :=
  match (s.lock l).hold with
  | none => s.refuse t .notHolder
  | some h =>
    if h.holder ≠ t then s.refuse t .notHolder
    else
      (s.setLock l { s.lock l with hold := some { h with lease := (s.lock l).leaseStart } }).done t
        (BitVec.ofNat 16 h.depth)

/-- Is the agent the holder of any lock (R28)? -/
def State.holdsAnyLock (s : State) (a : Agent) : Bool :=
  s.locks.any fun k => k.hold.any fun h => h.holder == a

def acquireCommand (s : State) (t : Agent) : State :=
  acceptCommand s t (some .acquire) fun s => withLock s t (acquire s t)

def releaseCommand (s : State) (t : Agent) : State :=
  acceptCommand s t (some .release) fun s => withLock s t (release s t)

def renewCommand (s : State) (t : Agent) : State :=
  acceptCommand s t (some .renew) fun s => withLock s t (renew s t)

/-! ### LOCK_CONFIG -/

/-- LOCK_CONFIG of lock `l`: IN_USE while it is HELD; otherwise the lease length and the use mask are written and the broken mark cleared (R27). -/
def lockConfig (s : State) (l : LockId) : State :=
  if (s.lock l).hold.isSome then s.supResult .inUse
  else
    (s.setLock l { s.lock l with
      leaseLength := s.supOperand 1, useMask := s.supOperand 2, broken := false }).supResult .done

def lockConfigCommand (s : State) : State :=
  withSupObject s 64 (lockConfig s)

/-! ### The meanings -/

/-- ACQUIRE (R8). -/
def execAcquire (t : Agent) (s : State) : Host.Outcome State Fault Refusal :=
  writeCycle s fun s => acquireCommand s t

/-- RELEASE (R16). -/
def execRelease (t : Agent) (s : State) : Host.Outcome State Fault Refusal :=
  writeCycle s fun s => releaseCommand s t

/-- RENEW (R19). -/
def execRenew (t : Agent) (s : State) : Host.Outcome State Fault Refusal :=
  writeCycle s fun s => renewCommand s t

/-- LOCK_CONFIG (R27). -/
def execLockConfig (s : State) : Host.Outcome State Fault Refusal :=
  writeCycle s lockConfigCommand

end Sys2Proof.Machine
end

