-- ==== Sys2Proof/Machine/Ports.lean ====
section
/-! DEFINITION. The Agent Ports' own commands and registers: ATTACH, DETACH, CANCEL, an unknown code in CMD, the notice set and enable, and the tick latch reads (chapters 6 and 7, section 5.2). -/

namespace Sys2Proof.Machine

/-! ### ATTACH, DETACH, CANCEL -/

/-- ATTACH: from DETACHED it is judged against PERMIT and clears the notice set; from ATTACHED it completes DONE and changes nothing else (R111). -/
def attach (s : State) (t : Agent) : State :=
  match (s.agent t).port with
  | .detached =>
    if admits s.sup.permit t then
      s.setAgent t { s.agent t with port := .attached, notices := 0, res := .doneWith 0 }
    else s.deny t .attach 0
  | _ => s.done t 0

/-- The bindings that agent `a` holds are dropped (R45, R112). -/
def State.dropBindings (s : State) (a : Agent) : State :=
  { s with queues := s.queues.map fun k => if k.bound = some a then { k with bound := none } else k }

/-- The areas, the watch list and the tick latch of a context that becomes DETACHED (R112, R140). -/
def AgentCtx.detach (c : AgentCtx) : AgentCtx :=
  { c with port := .detached, staging := .cleared, delivery := .cleared,
           watch := .all 4 none, latch := .cleared }

/-- DETACH of an ATTACHED agent: HOLDING while it holds a lock (R112). -/
def detach (s : State) (t : Agent) : State :=
  if s.holdsAnyLock t then s.refuse t .holding
  else (State.setAgent (s.dropBindings t) t (s.agent t).detach).done t 0

/-- CANCEL: a pending command ends CANCELLED without a notice; with none it is refused NOTHING_PENDING (R113). -/
def cancel (s : State) (t : Agent) : State :=
  match (s.agent t).port with
  | .waiting _ =>
    (s.leaveWaitList t).setAgent t { s.agent t with port := .attached, res := .plain .cancelled }
  | _ => s.refuse t .nothingPending

def attachCommand (s : State) (t : Agent) : State :=
  acceptCommand s t (some .attach) fun s => attach s t

def detachCommand (s : State) (t : Agent) : State :=
  acceptCommand s t (some .detach) fun s => detach s t

def cancelCommand (s : State) (t : Agent) : State :=
  acceptCommand s t (some .cancel) fun s => cancel s t

/-! ### NOTE, NEN and the tick latch -/

/-- The side effect of a read of NOTE: the kinds returned, all that were present, are removed (R127). -/
def clearNotices (s : State) (t : Agent) : State :=
  s.setAgent t { s.agent t with notices := 0 }

/-- A write of NEN replaces the enable; bits that name no kind are ignored (R128, R162). -/
def writeEnable (s : State) (t : Agent) (v : Word) : State :=
  s.setAgent t { s.agent t with enable := v &&& noticeKinds }

/-- The low half of the tick count (R93). -/
def TimeBase.low (b : TimeBase) : Word :=
  b.count.setWidth 16

/-- The high half of the tick count (R93). -/
def TimeBase.high (b : TimeBase) : Word :=
  b.count.extractLsb' 16 16

/-- The side effect of a read of TICKLO: the high half of the same count is latched (R94). -/
def latchTick (s : State) (t : Agent) : State :=
  s.setAgent t { s.agent t with latch := { valid := true, high := s.time.high } }

/-- What a read of TICKHI returns: the latched half if the latch is valid, else the present high half (R95). -/
def tickHigh (s : State) (t : Agent) : Word :=
  if (s.agent t).latch.valid then (s.agent t).latch.high else s.time.high

/-- The side effect of a read of TICKHI: the latch is invalid after it (R95). -/
def unlatchTick (s : State) (t : Agent) : State :=
  s.setAgent t { s.agent t with latch := { (s.agent t).latch with valid := false } }

/-! ### The meanings -/

/-- ATTACH (R111). -/
def execAttach (t : Agent) (s : State) : Host.Outcome State Fault Refusal :=
  writeCycle s fun s => attachCommand s t

/-- DETACH (R112). -/
def execDetach (t : Agent) (s : State) : Host.Outcome State Fault Refusal :=
  writeCycle s fun s => detachCommand s t

/-- CANCEL (R113). -/
def execCancel (t : Agent) (s : State) : Host.Outcome State Fault Refusal :=
  writeCycle s fun s => cancelCommand s t

/-- A read of NOTE (R127). -/
def execNoteRead (t : Agent) (s : State) : Host.Outcome State Fault Refusal :=
  readCycle s (fun s => (s.agent t).notices) fun s => clearNotices s t

/-- A write of NEN (R128). -/
def execNenWrite (t : Agent) (v : Word) (s : State) : Host.Outcome State Fault Refusal :=
  writeCycle s fun s => writeEnable s t v

/-- A read of TICKLO (R94). -/
def execTickloRead (t : Agent) (s : State) : Host.Outcome State Fault Refusal :=
  readCycle s (fun s => s.time.low) fun s => latchTick s t

/-- A read of TICKHI (R95). -/
def execTickhiRead (t : Agent) (s : State) : Host.Outcome State Fault Refusal :=
  readCycle s (fun s => tickHigh s t) fun s => unlatchTick s t

end Sys2Proof.Machine
end

