-- ==== Sys2Proof/Machine/Messages.lean ====
section
/-! DEFINITION. Messages (chapters 3 and 4): hand-off, admission, the admission pass, SEND and RECEIVE. -/

namespace Sys2Proof.Machine

/-! ### Delivery, hand-off and admission -/

/-- The delivery area of `a`, written whole from the message (R83). -/
def State.deliver (s : State) (a : Agent) (d : Stored) : State :=
  s.setAgent a { s.agent a with delivery := .ofStored d }

/-- The queue takes a number: the message gets the current one and the next sequence rises by one, from 65535 to 0 (R35). -/
def Queue.stamp (k : Queue) (m : Message) : Stored :=
  { msg := m, seq := k.nextSeq }

/-- Does the entry's filter match the message (R56, R72)? -/
def Receiver.accepts (r : Receiver) (m : Message) : Bool :=
  labelMatches r.label r.mask m

/-- The first waiting receiver, from the head, whose filter matches (R56). -/
def Queue.firstReceiver (k : Queue) (m : Message) : Option Receiver :=
  k.receivers.find? (·.accepts m)

/-- A message is handed to the waiting receiver `r` of queue `q`: it takes a number and no slot, the entry leaves the list, the delivery area is filled and the RECEIVE completes DONE with WAIT_DONE (R57). -/
def State.handOff (s : State) (q : QueueId) (m : Message) (r : Receiver) : State :=
  let k := s.queue q
  (((s.setQueue q { k with
      nextSeq := k.nextSeq + 1, receivers := k.receivers.filter (·.agent != r.agent) }).deliver
      r.agent (k.stamp m)).endWait r.agent (.delivered m))

/-- The place of a message in the list: an URGENT one after the last URGENT and before the first NORMAL, a NORMAL one at the tail (R34, R60). -/
def placeMessage (d : Stored) (msgs : List Stored) : List Stored :=
  match d.msg.urgency with
  | .normal => msgs ++ [d]
  | .urgent =>
    msgs.takeWhile (·.msg.urgency == .urgent) ++ d :: msgs.dropWhile (·.msg.urgency == .urgent)

/-- The WATCH kinds of one context for a queue: WATCHk for each position k that holds it (R60). -/
def AgentCtx.watchKinds (c : AgentCtx) (q : QueueId) : Word :=
  (allFin 4).foldl (fun w k => if c.watch.get k = some q then w ||| (Notice.watch k).bit else w) 0

/-- The rise of the queue's held count from 0 to 1 notifies its watchers (R46, R60). -/
def State.notifyWatchers (s : State) (q : QueueId) : State :=
  { s with agents := s.agents.map fun c => { c with notices := c.notices ||| c.watchKinds q } }

/-- The test of admission: held below the capacity, and a reserved slot or an unreserved one to take (R58). Only an OPEN queue takes messages (R33). -/
def State.canAdmit (s : State) (q : QueueId) : Bool :=
  match (s.queue q).state with
  | .opened lim =>
    decide ((s.queue q).held < lim.capacity) &&
      (decide ((s.queue q).held < lim.reserve) || decide (0 < s.unreserved))
  | _ => false

/-- The admission of a message: it takes a slot and a number, is placed in the list, and the rise from 0 to 1 notifies the watchers (R59, R60). -/
def State.admitMessage (s : State) (q : QueueId) (m : Message) : State :=
  let k := s.queue q
  let t : State := State.setQueue { s with freeCount := s.freeCount - 1 } q { k with
      nextSeq := k.nextSeq + 1, messages := placeMessage (k.stamp m) k.messages }
  if k.messages.isEmpty then t.notifyWatchers q else t

/-! ### The admission pass (R64, R65) -/

/-- The captured message of a blocked sender whose target is queue `q`, if `a` is one. -/
def State.blockedMessage (s : State) (q : QueueId) (a : Agent) : Option Message :=
  match (s.agent a).port with
  | .waiting w =>
    match w.want with
    | .send q' m => if q' = q then some m else none
    | _ => none
  | _ => none

/-- The pending SEND of a blocked sender completes DONE with the number the queue gave it, and it leaves the list (R59, R78). -/
def State.completeSender (s : State) (a : Agent) (seq : Word) : State :=
  (s.dropSender a).endWait a (.doneWith seq)

/-- One entry of the walk: its message is offered to the receivers of its queue, then admission is tested; an entry not served keeps its place (R65). -/
def serveSender (s : State) (a : Agent) : State :=
  match (s.agent a).port with
  | .waiting w =>
    match w.want with
    | .send q m =>
      match (s.queue q).firstReceiver m with
      | some r => (s.handOff q m r).completeSender a (s.queue q).nextSeq
      | none =>
        if s.canAdmit q then (s.admitMessage q m).completeSender a (s.queue q).nextSeq else s
    | _ => s
  | _ => s

/-- One walk of the Sender Wait List, from its oldest entry to its youngest (R65). -/
def admissionPass (s : State) : State :=
  s.senderWait.foldl serveSender s

/-! ### SEND (chapter 3) -/

/-- A SEND that can be neither handed off nor admitted (R61, R62). -/
def sendBlocked (s : State) (t : Agent) (q : QueueId) (mode : Mode) (m : Message) : State :=
  match mode with
  | .nowait => s.refuse t .wouldWait
  | .wait =>
    if s.sup.quiesce then s.refuse t .quiesced
    else State.startWait { s with senderWait := s.senderWait ++ [t] } t (.send q m) (s.operand t 2)

/-- A SEND that has passed its checks: the offer to waiting receivers, then admission (R56 to R59). -/
def sendOffer (s : State) (t : Agent) (q : QueueId) (mode : Mode) (m : Message) : State :=
  match (s.queue q).firstReceiver m with
  | some r => (s.handOff q m r).done t (s.queue q).nextSeq
  | none =>
    if s.canAdmit q then (s.admitMessage q m).done t (s.queue q).nextSeq else sendBlocked s t q mode m

/-- A SEND handed to the Queue Table, checked in the order of R55. STORE_EMPTY is reckoned for the whole event (R31). -/
def send (s : State) (t : Agent) (q : QueueId) : State :=
  match modeOf (s.operand t 1) with
  | none => s.refuse t .badOperand
  | some mode =>
    if !(s.agent t).staging.inRange then s.refuse t .badOperand
    else if !admits (s.queue q).sendMask t then s.deny t .send q.val
    else
      match (s.queue q).state with
      | .closed => s.refuse t .closed
      | .purging _ _ => s.refuse t .purging
      | .opened _ =>
        reckonStoreEmpty s (sendOffer s t q mode ((s.agent t).staging.capture t))

/-! ### RECEIVE (chapter 4) -/

/-- The message `d` leaves the list of queue `q` and its slot, fills the delivery area of `t`, and the RECEIVE completes DONE (R75). `p` finds `d`: the first message it holds of is removed. -/
def takeMessage (s : State) (t : Agent) (q : QueueId) (p : Stored → Bool) (d : Stored) : State :=
  let k := s.queue q
  ((State.setQueue { s with freeCount := s.freeCount + 1 } q { k with
      messages := k.messages.eraseP p }).deliver t d).setResult t (.delivered d.msg)

/-- The first blocked sender, oldest first, whose target is `q` and whose message matches (R77). -/
def State.firstSender (s : State) (q : QueueId) (label mask : Word) : Option (Agent × Message) :=
  s.senderWait.findSome? fun a =>
    match s.blockedMessage q a with
    | some m => if labelMatches label mask m then some (a, m) else none
    | none => none

/-- The hand-off of a blocked sender's message to the receiver `t` (R78). -/
def takeFromSender (s : State) (t : Agent) (q : QueueId) (a : Agent) (m : Message) : State :=
  let k := s.queue q
  ((((s.setQueue q { k with nextSeq := k.nextSeq + 1 }).completeSender a k.nextSeq).deliver t
    (k.stamp m)).setResult t (.delivered m))

/-- A RECEIVE whose two searches both fail (R79, R80). -/
def receiveBlocked (s : State) (t : Agent) (q : QueueId) (mode : Mode) (label mask : Word) : State :=
  match mode with
  | .nowait => s.refuse t .wouldWait
  | .wait =>
    if s.sup.quiesce then s.refuse t .quiesced
    else
      (s.setQueue q { s.queue q with
        receivers := (s.queue q).receivers ++ [{ agent := t, label := label, mask := mask }] }).startWait t
        (.receive q label mask) (s.operand t 2)

/-- A RECEIVE that has passed its checks: the search of the message list, with the admission pass after a removal, then the search of the waiting senders (R75 to R80). -/
def receiveSearch (s : State) (t : Agent) (q : QueueId) (mode : Mode) (label mask : Word) : State :=
  match (s.queue q).messages.find? fun d => labelMatches label mask d.msg with
  | some d => admissionPass (takeMessage s t q (fun d => labelMatches label mask d.msg) d)
  | none =>
    match s.firstSender q label mask with
    | some (a, m) => takeFromSender s t q a m
    | none => receiveBlocked s t q mode label mask

/-- Is the queue bound to an agent other than `t` (R73, R74)? -/
def Queue.boundToOther (k : Queue) (t : Agent) : Bool :=
  k.bound.any (· != t)

/-- A RECEIVE handed to the Queue Table, checked in the order of R73. STORE_EMPTY is reckoned for the removal and its pass together (R76). -/
def receive (s : State) (t : Agent) (q : QueueId) : State :=
  match modeOf (s.operand t 1) with
  | none => s.refuse t .badOperand
  | some mode =>
    if !admits (s.queue q).recvMask t then s.deny t .receive q.val
    else if (s.queue q).boundToOther t then s.deny t .receive q.val
    else
      match (s.queue q).state with
      | .closed => s.refuse t .closed
      | .purging _ _ => s.refuse t .purging
      | .opened _ =>
        reckonStoreEmpty s (receiveSearch s t q mode (s.operand t 3) (s.operand t 4))

def sendCommand (s : State) (t : Agent) : State :=
  acceptCommand s t (some .send) fun s => withQueue s t (send s t)

def receiveCommand (s : State) (t : Agent) : State :=
  acceptCommand s t (some .receive) fun s => withQueue s t (receive s t)

/-! ### The meanings -/

/-- SEND (R55). -/
def execSend (t : Agent) (s : State) : Host.Outcome State Fault Refusal :=
  writeCycle s fun s => sendCommand s t

/-- RECEIVE (R73). -/
def execReceive (t : Agent) (s : State) : Host.Outcome State Fault Refusal :=
  writeCycle s fun s => receiveCommand s t

end Sys2Proof.Machine
end

