-- ==== Sys2Proof/Machine/Queues.lean ====
section
/-! DEFINITION. The Queue Table's commands (sections 2.5 and 2.6): QUEUE_OPEN, QUEUE_CLOSE, QUEUE_PURGE, BIND, UNBIND, WATCH and UNWATCH. -/

namespace Sys2Proof.Machine

/-! ### Opening, closing and purging -/

/-- The values with which QUEUE_OPEN opens a queue (R39). -/
def openedQueue (lim : Limits) (sendMask recvMask : Word) : Queue :=
  { state := .opened lim, sendMask := sendMask, recvMask := recvMask, bound := none, nextSeq := 0,
    messages := [], receivers := [] }

/-- QUEUE_OPEN of queue `q`, checked in the order of R39. -/
def queueOpen (s : State) (q : QueueId) : State :=
  if (s.queue q).state ≠ .closed then s.supResult .inUse
  else
    let capacity := (s.supOperand 1).toNat
    let reserve := (s.supOperand 2).toNat
    if capacity = 0 ∨ Config.slots < capacity ∨ capacity < reserve then s.supResult .badOperand
    else if s.unreserved < reserve then s.supResult .noRoom
    else
      reckonStoreEmpty s
        ((s.setQueue q (openedQueue { capacity := capacity, reserve := reserve } (s.supOperand 3)
          (s.supOperand 4))).supResult .done)

/-- The waiting parties of a queue: the agents of its receiver wait list and the blocked senders whose target it is (R40). -/
def State.waitersOf (s : State) (q : QueueId) : List Agent :=
  (s.queue q).receivers.map (·.agent) ++ s.senderWait.filter fun a => (s.blockedMessage q a).isSome

/-- Every waiting party of the queue ends with the code, the value 0 and WAIT_DONE, and leaves its wait list; captured messages are discarded (R40). -/
def endWaiters (s : State) (q : QueueId) (c : ResCode) : State :=
  (s.waitersOf q).foldl (fun s a => s.endWait a (.plain c))
    (State.setQueue { s with
        senderWait := s.senderWait.filter fun a => (s.blockedMessage q a).isNone } q
      { s.queue q with receivers := [] })

/-- A queue becomes CLOSED: the binding is dropped, capacity, reserve and close-after-purge go with the state, the masks and the next sequence stay (R42). The admission pass follows it. -/
def closeRecord (s : State) (q : QueueId) : State :=
  s.setQueue q { s.queue q with state := .closed, bound := none }

/-- An OPEN queue that holds messages becomes PURGING and its purge job joins the Job List in the same event (R41, R43). -/
def startPurge (s : State) (q : QueueId) (lim : Limits) (closeAfter : Bool) : State :=
  (s.setQueue q { s.queue q with state := .purging lim closeAfter }).addJob (.purge q)

/-- QUEUE_CLOSE of an OPEN queue, after its waiting parties have ended (R41). -/
def closeOpened (s : State) (q : QueueId) (lim : Limits) : State :=
  if (s.queue q).messages.isEmpty then admissionPass (closeRecord s q) else startPurge s q lim true

/-- QUEUE_CLOSE of queue `q` (R41). STORE_EMPTY is reckoned for the whole event (R31). -/
def queueClose (s : State) (q : QueueId) : State :=
  match (s.queue q).state with
  | .closed => s.supResult .done
  | .purging lim _ =>
    (s.setQueue q { s.queue q with state := .purging lim true }).supResult .done
  | .opened lim =>
    reckonStoreEmpty s ((closeOpened (endWaiters s q .closed) q lim).supResult .done)

/-- QUEUE_PURGE of queue `q` (R43). -/
def queuePurge (s : State) (q : QueueId) : State :=
  match (s.queue q).state with
  | .closed => s.supResult .closed
  | .purging _ _ => s.supResult .done
  | .opened lim =>
    if (s.queue q).messages.isEmpty then (endWaiters s q .purging).supResult .done
    else (startPurge (endWaiters s q .purging) q lim false).supResult .done

def queueOpenCommand (s : State) : State :=
  withSupObject s 32 (queueOpen s)

def queueCloseCommand (s : State) : State :=
  withSupObject s 32 (queueClose s)

def queuePurgeCommand (s : State) : State :=
  withSupObject s 32 (queuePurge s)

/-! ### Binding -/

/-- BIND of queue `q`, checked in the order of R44. -/
def bindQueue (s : State) (t : Agent) (q : QueueId) : State :=
  if !admits (s.queue q).recvMask t then s.deny t .bind q.val
  else
    match (s.queue q).state with
    | .closed => s.refuse t .closed
    | .purging _ _ => s.refuse t .purging
    | .opened _ =>
      match (s.queue q).bound with
      | some b => if b = t then s.done t 0 else s.refuse t .inUse
      | none =>
        if (s.queue q).receivers.isEmpty then
          (s.setQueue q { s.queue q with bound := some t }).done t 0
        else s.refuse t .inUse

/-- UNBIND of queue `q` (R45). -/
def unbindQueue (s : State) (t : Agent) (q : QueueId) : State :=
  if (s.queue q).bound = some t then (s.setQueue q { s.queue q with bound := none }).done t 0
  else s.deny t .unbind q.val

/-! ### Watching -/

/-- The lowest position of the watch list that holds `x`. -/
def AgentCtx.watchPosition (c : AgentCtx) (x : Option QueueId) : Option (Fin 4) :=
  (allFin 4).find? fun k => c.watch.get k == x

/-- A watch position set in the context, and DONE with the position as value (R46, R47). -/
def setWatch (s : State) (t : Agent) (k : Fin 4) (x : Option QueueId) : State :=
  (s.setAgent t { s.agent t with watch := (s.agent t).watch.set k x }).done t (BitVec.ofNat 16 k.val)

/-- WATCH of queue `q`, checked in the order of R46. -/
def watchQueue (s : State) (t : Agent) (q : QueueId) : State :=
  if !admits (s.queue q).recvMask t then s.deny t .watch q.val
  else if ((s.agent t).watchPosition (some q)).isSome then s.refuse t .duplicate
  else
    match (s.agent t).watchPosition none with
    | none => s.refuse t .noRoom
    | some k => setWatch s t k (some q)

/-- UNWATCH of queue `q` (R47). -/
def unwatchQueue (s : State) (t : Agent) (q : QueueId) : State :=
  match (s.agent t).watchPosition (some q) with
  | none => s.refuse t .badOperand
  | some k => setWatch s t k none

def bindCommand (s : State) (t : Agent) : State :=
  acceptCommand s t (some .bind) fun s => withQueue s t (bindQueue s t)

def unbindCommand (s : State) (t : Agent) : State :=
  acceptCommand s t (some .unbind) fun s => withQueue s t (unbindQueue s t)

def watchCommand (s : State) (t : Agent) : State :=
  acceptCommand s t (some .watch) fun s => withQueue s t (watchQueue s t)

def unwatchCommand (s : State) (t : Agent) : State :=
  acceptCommand s t (some .unwatch) fun s => withQueue s t (unwatchQueue s t)

/-! ### The meanings -/

/-- BIND (R44). -/
def execBind (t : Agent) (s : State) : Host.Outcome State Fault Refusal :=
  writeCycle s fun s => bindCommand s t

/-- UNBIND (R45). -/
def execUnbind (t : Agent) (s : State) : Host.Outcome State Fault Refusal :=
  writeCycle s fun s => unbindCommand s t

/-- WATCH (R46). -/
def execWatch (t : Agent) (s : State) : Host.Outcome State Fault Refusal :=
  writeCycle s fun s => watchCommand s t

/-- UNWATCH (R47). -/
def execUnwatch (t : Agent) (s : State) : Host.Outcome State Fault Refusal :=
  writeCycle s fun s => unwatchCommand s t

/-- QUEUE_OPEN (R39). -/
def execQueueOpen (s : State) : Host.Outcome State Fault Refusal :=
  writeCycle s queueOpenCommand

/-- QUEUE_CLOSE (R41). -/
def execQueueClose (s : State) : Host.Outcome State Fault Refusal :=
  writeCycle s queueCloseCommand

/-- QUEUE_PURGE (R43). -/
def execQueuePurge (s : State) : Host.Outcome State Fault Refusal :=
  writeCycle s queuePurgeCommand

end Sys2Proof.Machine
end

