-- ==== Sys2Proof/Machine/Maintenance.lean ====
section
/-! DEFINITION. The Maintenance Engine (chapter 8): RETIRE, the lock sweep, the queue sweep with the end of a retirement, and the purge steps. -/

namespace Sys2Proof.Machine

/-! ### RETIRE (R134, R135) -/

/-- The context of an agent whose RETIRE is accepted: a pending command ends RETIRED without a notice, the watch list is emptied, the rest is kept (R135). -/
def AgentCtx.retire (c : AgentCtx) : AgentCtx :=
  { c with
    port := .retiring
    watch := .all 4 none
    res := match c.port with
      | .waiting _ => .plain .retired
      | _ => c.res }

/-- An accepted RETIRE: the agent leaves its wait list, becomes RETIRING, and its job joins the Job List (R135). -/
def acceptRetire (s : State) (a : Agent) : State :=
  ((s.leaveWaitList a).setAgent a (s.agent a).retire).addJob (.retire a)

/-- RETIRE of agent `a`, checked in the order of R134. -/
def retire (s : State) (a : Agent) : State :=
  match (s.agent a).port with
  | .detached => s.supResult .notAttached
  | .retiring => s.supResult .retiring
  | .attached => (acceptRetire s a).supResult .done
  | .waiting _ => (acceptRetire s a).supResult .done

def retireCommand (s : State) : State :=
  withSupObject s 16 (retire s)

/-! ### The sweeps -/

def State.setEngine (s : State) (e : EngineState) : State :=
  { s with engine := { s.engine with state := e } }

/-- The number after `c`, if there is one. -/
def nextCursor {n : Nat} (c : Fin n) : Option (Fin n) :=
  if h : c.val + 1 < n then some ⟨c.val + 1, h⟩ else none

/-- A lock sweep step: lock `c` is lost if the retiring agent holds it, without LEASE_LOST; then the cursor rises, or the queue sweep starts (R136). -/
def lockSweepStep (s : State) : State :=
  match s.engine.state with
  | .retireLocks r c =>
    let s' := if (s.lock c).hold.any (fun h => h.holder == r) then loseLock s c else s
    match nextCursor c with
    | some c' => s'.setEngine (.retireLocks r c')
    | none => s'.setEngine (.retireQueues r 0)
  | _ => s

/-- The end of a retirement: the agent becomes DETACHED with its areas and latch cleared, RES and RESV kept, and the job ends (R140). -/
def endRetirement (s : State) (r : Agent) : State :=
  (s.setAgent r (s.agent r).detach).endJob

/-- A queue sweep step: the retiring agent's binding at queue `c` is dropped; then the cursor rises, or the retirement ends in the same step (R138, R140). -/
def queueSweepStep (s : State) : State :=
  match s.engine.state with
  | .retireQueues r c =>
    let s' :=
      if (s.queue c).bound = some r then s.setQueue c { s.queue c with bound := none } else s
    match nextCursor c with
    | some c' => s'.setEngine (.retireQueues r c')
    | none => endRetirement s' r
  | _ => s

/-! ### Purge steps -/

/-- The head message of queue `q` leaves the list and its slot, and is discarded (R142). -/
def discardHead (s : State) (q : QueueId) : State :=
  match (s.queue q).messages with
  | [] => s
  | _ :: rest =>
    State.setQueue { s with freeCount := s.freeCount + 1 } q { s.queue q with messages := rest }

/-- The state of the queue at the end of its purge: OPEN again, or CLOSED by close-after-purge (R143). -/
def endPurge (s : State) (q : QueueId) (lim : Limits) (closeAfter : Bool) : State :=
  if closeAfter then closeRecord s q else s.setQueue q { s.queue q with state := .opened lim }

/-- A purge step at queue `q`: the head is discarded; the step that empties the list ends the purge and, after the one admission pass, the job (R142, R143). -/
def purgeQueue (s : State) (q : QueueId) (lim : Limits) (closeAfter : Bool) : State :=
  let s' := discardHead s q
  if (s'.queue q).messages.isEmpty then (admissionPass (endPurge s' q lim closeAfter)).endJob
  else admissionPass s'

/-- The engine's step in state PURGE; STORE_EMPTY is reckoned for the step and its pass together (R142, R143). -/
def purgeStep (s : State) : State :=
  match s.engine.state with
  | .purge q =>
    match (s.queue q).state with
    | .purging lim closeAfter => reckonStoreEmpty s (purgeQueue s q lim closeAfter)
    | _ => s
  | _ => s

/-! ### The meanings -/

/-- RETIRE (R134, R135). -/
def execRetire (s : State) : Host.Outcome State Fault Refusal :=
  writeCycle s retireCommand

/-- LOCK_SWEEP_STEP (R136). -/
def execLockSweepStep (s : State) : Host.Outcome State Fault Refusal :=
  blockEvent s lockSweepStep

/-- QUEUE_SWEEP_STEP (R138). -/
def execQueueSweepStep (s : State) : Host.Outcome State Fault Refusal :=
  blockEvent s queueSweepStep

/-- PURGE_STEP (R142). -/
def execPurgeStep (s : State) : Host.Outcome State Fault Refusal :=
  blockEvent s purgeStep

end Sys2Proof.Machine
end

