-- ==== Sys2Proof/Machine/TimeBase.lean ====
section
/-! DEFINITION. The Time Base and what the Lock Table and the Agent Ports do with a tick (chapter 5): REFCLK periods, the tick, FREEZE, TICKDIV, the countdown and expiry of leases and deadlines. -/

namespace Sys2Proof.Machine

/-! ### The interval and the tick -/

/-- The interval length that a TICKDIV value gives: sixteen times it, 0 counting as 65536 (R89). -/
def intervalOf (d : Word) : Nat :=
  16 * if d = 0 then 65536 else d.toNat

/-- The interval ends: the counter returns to 0, the next interval takes its length from TICKDIV, the tick count rises, and each of the two other blocks has one more tick to take (R89, R93, R96). -/
def TimeBase.tick (b : TimeBase) : TimeBase :=
  { b with counter := 0, length := intervalOf b.tickdiv, count := b.count + 1,
           lockDue := b.lockDue + 1, portDue := b.portDue + 1 }

/-- One REFCLK period passes with FREEZE released: the counter rises by one, and when it reaches the length in force the interval ends (R89, log 8). -/
def TimeBase.period (b : TimeBase) : TimeBase :=
  if b.counter + 1 < b.length then { b with counter := b.counter + 1 } else b.tick

/-- The Time Base acts while FREEZE is released; while it is asserted the counter holds and no tick occurs (R92). -/
def timeEvent (s : State) (f : TimeBase → TimeBase) : State :=
  if s.pins.frozen then s else { s with time := f s.time }

/-- A write of TICKDIV changes the value at once and the interval in progress not at all (R90). -/
def writeTickdiv (s : State) (v : Word) : State :=
  { s with time := { s.time with tickdiv := v } }

/-- FREEZE changes level (R92, R164). -/
def setFreeze (s : State) (level : Bool) : State :=
  { s with pins := { s.pins with frozen := level } }

/-! ### The Lock Table takes a tick (R96, R97) -/

/-- The lease of lock `l` expires: the loss, and LEASE_LOST for the old holder (R21). -/
def expireLease (s : State) (l : LockId) (h : Hold) : State :=
  (loseLock s l).setNotice h.holder .leaseLost

/-- The tick at one lock: a present lease remaining is lowered by one, and at zero the lock expires; a lease started by the expiry is not lowered (R97, R98). -/
def tickLock (s : State) (l : LockId) : State :=
  match (s.lock l).hold with
  | none => s
  | some h =>
    match h.lease with
    | none => s
    | some r =>
      if 1 < r then s.setLock l { s.lock l with hold := some { h with lease := some (r - 1) } }
      else expireLease s l h

/-- The Lock Table's event of one tick, on all its locks at once (R96). -/
def tickAllLocks (s : State) : State :=
  (allFin 64).foldl tickLock s

/-- The Lock Table takes the oldest tick it has not taken; with none to take, and while FREEZE is asserted, nothing happens (R96, R92, log 11). -/
def lockTableTick (s : State) : State :=
  if s.time.lockDue = 0 ∨ s.pins.frozen then s
  else tickAllLocks { s with time := { s.time with lockDue := s.time.lockDue - 1 } }

/-- Will the next tick that the Lock Table takes bring the lease remaining of `l` to zero? -/
def State.leaseEnding (s : State) (l : LockId) : Bool :=
  match (s.lock l).hold with
  | none => false
  | some h => h.lease.any (decide <| · ≤ 1)

/-! ### The Agent Ports take a tick (R96, R99) -/

/-- The expiry of the deadline of `a`: TIMEOUT with WAIT_DONE, and the agent leaves its wait list (R99). -/
def expireDeadline (s : State) (a : Agent) : State :=
  (s.leaveWaitList a).endWait a (.plain .timeout)

/-- The tick at one context: a present deadline remaining is lowered by one, and at zero the command ends (R99). -/
def tickPort (s : State) (a : Agent) : State :=
  match (s.agent a).port with
  | .waiting w =>
    match w.deadline with
    | none => s
    | some r =>
      if 1 < r then s.setAgent a { s.agent a with port := .waiting { w with deadline := some (r - 1) } }
      else expireDeadline s a
  | _ => s

/-- The Agent Ports' event of one tick, on all contexts at once (R96). -/
def tickAllPorts (s : State) : State :=
  (allFin 16).foldl tickPort s

/-- The Agent Ports take the oldest tick they have not taken (R96, log 11). -/
def agentPortsTick (s : State) : State :=
  if s.time.portDue = 0 ∨ s.pins.frozen then s
  else tickAllPorts { s with time := { s.time with portDue := s.time.portDue - 1 } }

/-- Will the next tick that the Agent Ports take bring the deadline of `a` to zero? -/
def State.deadlineEnding (s : State) (a : Agent) : Bool :=
  match (s.agent a).port with
  | .waiting w => w.deadline.any (decide <| · ≤ 1)
  | _ => false

/-! ### The meanings -/

/-- A REFCLK period (R89). -/
def execRefclkPeriodCounted (s : State) : Host.Outcome State Fault Refusal :=
  blockEvent s fun s => timeEvent s TimeBase.period

/-- TICK: the rest of the interval passes and it ends in a tick (R89, log 7). -/
def execTick (s : State) : Host.Outcome State Fault Refusal :=
  blockEvent s fun s => timeEvent s TimeBase.tick

/-- LEASE_COUNTDOWN: the Lock Table takes a tick, expiries and all (R96, R97). -/
def execLeaseCountdown (s : State) : Host.Outcome State Fault Refusal :=
  blockEvent s lockTableTick

/-- LEASE_EXPIRY: the Lock Table takes the tick that brings the lease of lock `l` to zero (R21, R96, log 10). -/
def execLeaseExpiry (l : LockId) (s : State) : Host.Outcome State Fault Refusal :=
  blockEvent s fun s => if s.leaseEnding l then lockTableTick s else s

/-- DEADLINE_COUNTDOWN: the Agent Ports take a tick, expiries and all (R96, R99). -/
def execDeadlineCountdown (s : State) : Host.Outcome State Fault Refusal :=
  blockEvent s agentPortsTick

/-- DEADLINE_EXPIRY: the Agent Ports take the tick that brings the deadline of agent `a` to zero (R99, R96, log 10). -/
def execDeadlineExpiry (a : Agent) (s : State) : Host.Outcome State Fault Refusal :=
  blockEvent s fun s => if s.deadlineEnding a then agentPortsTick s else s

/-- FREEZE is asserted; the pin moves whether or not the part is in reset (R92, R102). -/
def execFreezeAssert (s : State) : Host.Outcome State Fault Refusal :=
  .next (setFreeze s true)

/-- FREEZE is released (R92, R102). -/
def execFreezeRelease (s : State) : Host.Outcome State Fault Refusal :=
  .next (setFreeze s false)

/-- A supervisor write of TICKDIV (R90). -/
def execTickdivWrite (v : Word) (s : State) : Host.Outcome State Fault Refusal :=
  writeCycle s fun s => writeTickdiv s v

end Sys2Proof.Machine
end

