-- ==== Sys2Proof/Machine/Supervisor.lean ====
section
/-! DEFINITION. The Supervision Unit (chapter 9): QUIESCE, RESUME, ACK_VIOLATION, CLEAR, the quiet indication, and the RESET input. -/

namespace Sys2Proof.Machine

/-- Quiesce mode on or off; each completes DONE (R151). -/
def setQuiesce (s : State) (on : Bool) : State :=
  State.supResult { s with sup := { s.sup with quiesce := on } } .done

/-- ACK_VIOLATION empties the capture with its more flag; VIOLATION stays in the notice set (R154). -/
def ackViolation (s : State) : State :=
  State.supResult { s with sup := { s.sup with capture := none } } .done

/-- The quiet indication: quiesce mode on, no agent with a pending command, the engine IDLE (R152). -/
def State.quiet (s : State) : Bool :=
  s.sup.quiesce && s.engine.state == .idle &&
    !(s.agents.any fun c => match c.port with
      | .waiting _ => true
      | _ => false)

/-! ### CLEAR (R155, Table 9-4) -/

/-- A lock at CLEAR: FREE, no waiters, the mark clear; the lease length and the use mask kept (R6). -/
def Lock.clear (k : Lock) : Lock :=
  { k with hold := none, waiters := [], broken := false }

/-- A context at CLEAR: DETACHED with CLEARED in RES, operands 0, areas cleared, notices, watches and latch cleared; the enable kept (R121). -/
def AgentCtx.clear (c : AgentCtx) : AgentCtx :=
  { AgentCtx.initial with res := .plain .cleared, enable := c.enable }

/-- CLEAR, on every block in one event. The time base, PERMIT, the tag, SOPA to SOPE and the selectors are kept (R155, R103). -/
def clearPart (s : State) : State :=
  State.supResult
    { s with
      agents := s.agents.map AgentCtx.clear
      locks := s.locks.map Lock.clear
      queues := .all 32 .initial
      freeCount := Config.slots
      senderWait := []
      engine := { jobs := [], state := .idle }
      sup := { s.sup with quiesce := false, capture := none } }
    .done

/-! ### RESET (R163) -/

/-- RESET# held low: every block at its state after RESET, the bus not answered; the level of FREEZE is the board's, and the queue of waiting commands and the way the coming cycles end are the environment's (R163, log 3). -/
def enterReset (s : State) : State :=
  { State.reset with
    pins := { resetHeld := true, frozen := s.pins.frozen }
    bus := { State.reset.bus with abandoned := s.bus.abandoned }
    pending := s.pending }

/-- RESET# rises: the supervisor tag is latched from the straps and the part runs (R146, R163). A part not in reset has no rise of RESET# to see (log 6). -/
def releaseReset (s : State) (straps : Agent) : State :=
  if s.pins.resetHeld then
    { s with pins := { s.pins with resetHeld := false }, sup := { s.sup with tag := straps } }
  else s

/-! ### The meanings -/

/-- QUIESCE (R151). -/
def execQuiesce (s : State) : Host.Outcome State Fault Refusal :=
  writeCycle s fun s => setQuiesce s true

/-- RESUME (R151). -/
def execResume (s : State) : Host.Outcome State Fault Refusal :=
  writeCycle s fun s => setQuiesce s false

/-- ACK_VIOLATION (R154). -/
def execAckViolation (s : State) : Host.Outcome State Fault Refusal :=
  writeCycle s ackViolation

/-- CLEAR (R155). -/
def execClear (s : State) : Host.Outcome State Fault Refusal :=
  writeCycle s clearPart

/-- RESET (R163). -/
def execReset (s : State) : Host.Outcome State Fault Refusal :=
  .next (enterReset s)

/-- RESET_RELEASE (R146). -/
def execResetRelease (straps : Agent) (s : State) : Host.Outcome State Fault Refusal :=
  .next (releaseReset s straps)

end Sys2Proof.Machine
end

