-- ==== Sys2Proof/Machine/Bus.lean ====
section
/-! DEFINITION. The register window (chapter 10): how a bus write is routed by its offset and tag, and what a read of each register returns. -/

namespace Sys2Proof.Machine

/-! ### Writes of CMD and SCMD -/

/-- A write to CMD of a code: the command of that code, or BAD_COMMAND after the checks that come before it (R108). -/
def writeCmd (s : State) (t : Agent) (code : Word) : State :=
  match AgentCmd.ofCode code with
  | none => acceptCommand s t none fun s => s
  | some .attach => attachCommand s t
  | some .detach => detachCommand s t
  | some .cancel => cancelCommand s t
  | some .acquire => acquireCommand s t
  | some .release => releaseCommand s t
  | some .renew => renewCommand s t
  | some .send => sendCommand s t
  | some .receive => receiveCommand s t
  | some .bind => bindCommand s t
  | some .unbind => unbindCommand s t
  | some .watch => watchCommand s t
  | some .unwatch => unwatchCommand s t

/-- A write to SCMD of a code by the supervisor: the command of that code, or BAD_COMMAND (R148). -/
def writeScmd (s : State) (code : Word) : State :=
  match SupCmd.ofCode code with
  | none => s.supResult .badCommand
  | some .lockConfig => lockConfigCommand s
  | some .queueOpen => queueOpenCommand s
  | some .queueClose => queueCloseCommand s
  | some .queuePurge => queuePurgeCommand s
  | some .retire => retireCommand s
  | some .quiesce => setQuiesce s true
  | some .resume => setQuiesce s false
  | some .ackViolation => ackViolation s
  | some .clear => clearPart s

/-! ### Writes of the two pages -/

def State.setStaging (s : State) (t : Agent) (g : Staging) : State :=
  s.setAgent t { s.agent t with staging := g }

/-- A write to the agent page of tag `t` (Table 10-1): a write to a read-only register or an unused offset is ignored (R161). -/
def writeAgentReg (s : State) (t : Agent) (r : AgentReg) (v : Word) : State :=
  match r with
  | .cmd => writeCmd s t v
  | .operand i => s.setAgent t { s.agent t with operands := (s.agent t).operands.set i v }
  | .nen => writeEnable s t v
  | .shdr => s.setStaging t ((s.agent t).staging.writeHeader v)
  | .slabel => s.setStaging t { (s.agent t).staging with label := v }
  | .stg i =>
    s.setStaging t { (s.agent t).staging with payload := (s.agent t).staging.payload.set i v }
  | .res | .resv | .pstate | .note | .ticklo | .tickhi => s
  | .dhdr | .dlabel | .dseq | .dlv _ => s
  | .unused => s

/-- A write to the supervisor page from the supervisor tag (Table 10-2). -/
def writeSupReg (s : State) (r : SupReg) (v : Word) : State :=
  match r with
  | .scmd => writeScmd s v
  | .operand i => { s with sup := { s.sup with operands := s.sup.operands.set i v } }
  | .permit => { s with sup := { s.sup with permit := v } }
  | .tickdiv => writeTickdiv s v
  | .lockSel => { s with sup := { s.sup with lockSel := v } }
  | .qsel => { s with sup := { s.sup with queueSel := v } }
  | .sres | .sresv | .free | .unres | .engine | .quiet | .vcap _ => s
  | .lockInfo | .lockLease | .lockWait | .lockMask => s
  | .qinfo | .qcap | .qres | .qwait | .qbind | .qseq | .suptag => s
  | .unused => s

/-- A bus write, routed by A[7] and, on the supervisor page, by the tag: from any tag but the supervisor's it changes nothing there and is recorded with its offset (R159, R147). -/
def busWrite (s : State) (t : Agent) (off : Offset) (v : Word) : State :=
  if Offset.supervisorPage off then
    if t = s.sup.tag then writeSupReg s (SupReg.ofOffset off) v
    else s.recordViolation t (.pageWrite (Offset.even off))
  else writeAgentReg s t (AgentReg.ofOffset off) v

/-! ### Reads of the two pages -/

/-- The state of an agent as PSTATE numbers it (Table 10-5). -/
def Port.number : Port → Nat
  | .detached => 0
  | .attached => 1
  | .waiting _ => 2
  | .retiring => 3

/-- The pending kind as PSTATE numbers it, 0 for NONE (Table 10-5). -/
def Port.kindNumber : Port → Nat
  | .waiting w =>
    match w.want with
    | .acquire _ => 1
    | .send _ _ => 2
    | .receive _ _ _ => 3
  | _ => 0

/-- The object of the pending command, 0 when there is none (R119). -/
def Port.object : Port → Nat
  | .waiting w =>
    match w.want with
    | .acquire l => l.val
    | .send q _ => q.val
    | .receive q _ _ => q.val
  | _ => 0

/-- PSTATE (Table 10-5). -/
def Port.pstate (p : Port) : Word :=
  fieldAt p.object 8 ||| fieldAt p.kindNumber 2 ||| fieldAt p.number 0

def Urgency.isUrgent (u : Urgency) : Bool :=
  u == .urgent

/-- SHDR (Table 10-6). -/
def Staging.header (g : Staging) : Word :=
  fieldAt g.replyQueue.toNat 6 ||| flagAt g.replyPresent 5 ||| flagAt g.urgency.isUrgent 4 |||
    fieldAt g.length.toNat 0

/-- A queue number that may be absent, read as 0 then. -/
def optNumber {n : Nat} (x : Option (Fin n)) : Nat :=
  match x with
  | some i => i.val
  | none => 0

/-- DHDR (Table 10-6). -/
def Delivery.header (d : Delivery) : Word :=
  fieldAt d.source.val 12 ||| fieldAt (optNumber d.reply) 6 ||| flagAt d.reply.isSome 5 |||
    flagAt d.urgency.isUrgent 4 ||| fieldAt d.length 0

/-- What a read of the agent page of tag `t` returns. -/
def readAgentReg (s : State) (t : Agent) (r : AgentReg) : Word :=
  let c := s.agent t
  match r with
  | .cmd => 0
  | .operand i => c.operands.get i
  | .res => c.res.code.number
  | .resv => c.res.resv
  | .pstate => c.port.pstate
  | .note => c.notices
  | .nen => c.enable
  | .ticklo => s.time.low
  | .tickhi => tickHigh s t
  | .shdr => c.staging.header
  | .slabel => c.staging.label
  | .stg i => c.staging.payload.get i
  | .dhdr => c.delivery.header
  | .dlabel => c.delivery.label
  | .dseq => c.delivery.seq
  | .dlv i => c.delivery.payload.get i
  | .unused => 0

/-- The number of an engine state (Table 10-9). -/
def EngineState.number : EngineState → Nat
  | .idle => 0
  | .retireLocks _ _ => 1
  | .retireQueues _ _ => 2
  | .purge _ => 3

/-- The object of the current job, 0 when IDLE (R133). -/
def EngineState.object : EngineState → Nat
  | .idle => 0
  | .retireLocks r _ => r.val
  | .retireQueues r _ => r.val
  | .purge q => q.val

/-- ENGINE (Table 10-9). -/
def Engine.word (e : Engine) : Word :=
  fieldAt e.state.number 14 ||| fieldAt e.state.object 8 ||| fieldAt e.jobs.length 0

/-- VCAP0 to VCAP2 (Table 10-10); an empty capture reads 0 in every field (R153). -/
def captureWord (c : Option Capture) (i : Fin 3) : Word :=
  match c with
  | none => 0
  | some v =>
    match v.event, i with
    | .command _ _, 0 => flagAt true 15 ||| flagAt v.more 14 ||| fieldAt v.tag.val 0
    | .command c _, 1 => c.code
    | .command _ object, 2 => object.setWidth 16
    | .pageWrite _, 0 =>
      flagAt true 15 ||| flagAt v.more 14 ||| flagAt true 13 ||| flagAt true 12 ||| fieldAt v.tag.val 0
    | .pageWrite off, 1 => off.setWidth 16
    | .pageWrite _, 2 => 0

/-- LOCKINFO (Table 10-8). -/
def Lock.info (k : Lock) : Word :=
  match k.hold with
  | none => flagAt k.broken 14
  | some h => flagAt true 15 ||| flagAt k.broken 14 ||| fieldAt h.holder.val 8 ||| fieldAt h.depth 0

/-- LOCKLEASE: the lease remaining, 0 when absent (R156). -/
def Lock.leaseWord (k : Lock) : Word :=
  match k.hold with
  | none => 0
  | some h =>
    match h.lease with
    | none => 0
    | some r => BitVec.ofNat 16 r

/-- LOCKWAIT: the waiter count and the head waiter, 0 when absent (R156). -/
def Lock.waitWord (k : Lock) : Word :=
  fieldAt (optNumber k.waiters.head?) 8 ||| fieldAt k.waiters.length 0

/-- The capacity and reserve of a queue, absent when it is CLOSED (R33). -/
def QueueState.limits : QueueState → Option Limits
  | .closed => none
  | .opened lim => some lim
  | .purging lim _ => some lim

/-- QINFO (Table 10-8). -/
def Queue.info (k : Queue) : Word :=
  match k.state with
  | .closed => fieldAt k.held 0
  | .opened _ => fieldAt 1 14 ||| fieldAt k.held 0
  | .purging _ closeAfter => fieldAt 2 14 ||| flagAt closeAfter 13 ||| fieldAt k.held 0

/-- QCAP, 0 when absent (R156). -/
def Queue.capacityWord (k : Queue) : Word :=
  match k.state.limits with
  | none => 0
  | some lim => BitVec.ofNat 16 lim.capacity

/-- QRES, 0 when absent (R156). -/
def Queue.reserveWord (k : Queue) : Word :=
  match k.state.limits with
  | none => 0
  | some lim => BitVec.ofNat 16 lim.reserve

/-- QWAIT: the waiting receivers and the blocked senders whose target is the queue (R156). -/
def State.waitWord (s : State) (q : QueueId) : Word :=
  fieldAt (s.senderWait.countP fun a => (s.blockedMessage q a).isSome) 8 |||
    fieldAt (s.queue q).receivers.length 0

/-- QBIND, 0 when the queue is unbound (R156). -/
def Queue.bindWord (k : Queue) : Word :=
  flagAt k.bound.isSome 15 ||| fieldAt (optNumber k.bound) 0

/-- An info register of the selected record: 0 while the selector names none (R156). -/
def selected (n : Nat) (sel : Word) (read : Fin n → Word) : Word :=
  match objectOf n sel with
  | some x => read x
  | none => 0

/-- What a read of the supervisor page returns to the supervisor tag. -/
def readSupReg (s : State) (r : SupReg) : Word :=
  match r with
  | .scmd => 0
  | .operand i => s.sup.operands.get i
  | .sres => s.sup.sres.number
  | .sresv => s.sup.sresv
  | .permit => s.sup.permit
  | .tickdiv => s.time.tickdiv
  | .free => BitVec.ofNat 16 s.freeCount
  | .unres => BitVec.ofNat 16 s.unreserved
  | .engine => s.engine.word
  | .quiet => flagAt s.quiet 1 ||| flagAt s.sup.quiesce 0
  | .vcap i => captureWord s.sup.capture i
  | .lockSel => s.sup.lockSel
  | .lockInfo => selected 64 s.sup.lockSel fun l => (s.lock l).info
  | .lockLease => selected 64 s.sup.lockSel fun l => (s.lock l).leaseWord
  | .lockWait => selected 64 s.sup.lockSel fun l => (s.lock l).waitWord
  | .lockMask => selected 64 s.sup.lockSel fun l => (s.lock l).useMask
  | .qsel => s.sup.queueSel
  | .qinfo => selected 32 s.sup.queueSel fun q => (s.queue q).info
  | .qcap => selected 32 s.sup.queueSel fun q => (s.queue q).capacityWord
  | .qres => selected 32 s.sup.queueSel fun q => (s.queue q).reserveWord
  | .qwait => selected 32 s.sup.queueSel s.waitWord
  | .qbind => selected 32 s.sup.queueSel fun q => (s.queue q).bindWord
  | .qseq => selected 32 s.sup.queueSel fun q => (s.queue q).nextSeq
  | .suptag => fieldAt s.sup.tag.val 0
  | .unused => 0

/-- The contents that an offset has for a tag, the value of a read that is answered: the agent page of the tag, or the supervisor page, which reads 0 to any other tag (R159, R147). -/
def State.readReg (s : State) (t : Agent) (off : Offset) : Word :=
  if Offset.supervisorPage off then
    if t = s.sup.tag then readSupReg s (SupReg.ofOffset off) else 0
  else readAgentReg s t (AgentReg.ofOffset off)

/-- The side effect of a read: NOTE, TICKLO and TICKHI have one, at the context of the tag that reads (R161). -/
def readAgentEffect (s : State) (t : Agent) (r : AgentReg) : State :=
  match r with
  | .note => clearNotices s t
  | .ticklo => latchTick s t
  | .tickhi => unlatchTick s t
  | _ => s

def busRead (s : State) (t : Agent) (off : Offset) : State :=
  if Offset.supervisorPage off then s else readAgentEffect s t (AgentReg.ofOffset off)

/-- The read cycle of any offset by any tag (R158, R159, R161): a part in reset does not answer it (R163). The reads of NOTE, TICKLO and TICKHI are commands of the table; a plain read is no row of it, so the environment takes it between two steps (log 4). -/
def registerRead (t : Agent) (off : Offset) (s : State) : Host.Outcome State Fault Refusal :=
  readCycle s (fun s => s.readReg t off) fun s => busRead s t off

/-! ### The meanings -/

/-- REGISTER_WRITE: a bus write (R107, R161). -/
def execRegisterWrite (t : Agent) (off : Offset) (v : Word) (s : State) :
    Host.Outcome State Fault Refusal :=
  writeCycle s fun s => busWrite s t off v

/-- SUPERVISOR_PAGE_WRITE_DENIED: a bus write to the supervisor page (R147). -/
def execSupervisorPageWriteDenied (t : Agent) (off : Offset) (v : Word) (s : State) :
    Host.Outcome State Fault Refusal :=
  writeCycle s fun s => busWrite s t off v

/-- UNKNOWN_AGENT_COMMAND_CODE: a write of CMD (R108). -/
def execUnknownAgentCommandCode (t : Agent) (code : Word) (s : State) :
    Host.Outcome State Fault Refusal :=
  writeCycle s fun s => writeCmd s t code

/-- UNKNOWN_SUPERVISOR_COMMAND_CODE: a write of SCMD by the supervisor (R148). -/
def execUnknownSupervisorCommandCode (code : Word) (s : State) : Host.Outcome State Fault Refusal :=
  writeCycle s fun s => writeScmd s code

end Sys2Proof.Machine
end

