-- ==== Sys2Proof/Machine/Dispatch.lean ====
section
/-! DEFINITION. exec: the meaning of each command, one arm per constructor. -/

namespace Sys2Proof.Machine

def exec (i : Instr) (s : State) : Host.Outcome State Fault Refusal :=
  match i with
  | .attach t => Sys2Proof.Machine.execAttach t s
  | .detach t => Sys2Proof.Machine.execDetach t s
  | .cancel t => Sys2Proof.Machine.execCancel t s
  | .acquire t => Sys2Proof.Machine.execAcquire t s
  | .release t => Sys2Proof.Machine.execRelease t s
  | .renew t => Sys2Proof.Machine.execRenew t s
  | .send t => Sys2Proof.Machine.execSend t s
  | .receive t => Sys2Proof.Machine.execReceive t s
  | .bind t => Sys2Proof.Machine.execBind t s
  | .unbind t => Sys2Proof.Machine.execUnbind t s
  | .watch t => Sys2Proof.Machine.execWatch t s
  | .unwatch t => Sys2Proof.Machine.execUnwatch t s
  | .lockConfig => Sys2Proof.Machine.execLockConfig s
  | .queueOpen => Sys2Proof.Machine.execQueueOpen s
  | .queueClose => Sys2Proof.Machine.execQueueClose s
  | .queuePurge => Sys2Proof.Machine.execQueuePurge s
  | .retire => Sys2Proof.Machine.execRetire s
  | .quiesce => Sys2Proof.Machine.execQuiesce s
  | .resume => Sys2Proof.Machine.execResume s
  | .ackViolation => Sys2Proof.Machine.execAckViolation s
  | .clear => Sys2Proof.Machine.execClear s
  | .noteRead t => Sys2Proof.Machine.execNoteRead t s
  | .nenWrite t v => Sys2Proof.Machine.execNenWrite t v s
  | .tickloRead t => Sys2Proof.Machine.execTickloRead t s
  | .tickhiRead t => Sys2Proof.Machine.execTickhiRead t s
  | .tickdivWrite v => Sys2Proof.Machine.execTickdivWrite v s
  | .supervisorPageWriteDenied t off v => Sys2Proof.Machine.execSupervisorPageWriteDenied t off v s
  | .registerWrite t off v => Sys2Proof.Machine.execRegisterWrite t off v s
  | .reset => Sys2Proof.Machine.execReset s
  | .resetRelease straps => Sys2Proof.Machine.execResetRelease straps s
  | .freezeAssert => Sys2Proof.Machine.execFreezeAssert s
  | .freezeRelease => Sys2Proof.Machine.execFreezeRelease s
  | .tick => Sys2Proof.Machine.execTick s
  | .leaseCountdown => Sys2Proof.Machine.execLeaseCountdown s
  | .leaseExpiry l => Sys2Proof.Machine.execLeaseExpiry l s
  | .deadlineCountdown => Sys2Proof.Machine.execDeadlineCountdown s
  | .deadlineExpiry a => Sys2Proof.Machine.execDeadlineExpiry a s
  | .lockSweepStep => Sys2Proof.Machine.execLockSweepStep s
  | .queueSweepStep => Sys2Proof.Machine.execQueueSweepStep s
  | .purgeStep => Sys2Proof.Machine.execPurgeStep s
  | .refclkPeriodCounted => Sys2Proof.Machine.execRefclkPeriodCounted s
  | .unknownAgentCommandCode t code => Sys2Proof.Machine.execUnknownAgentCommandCode t code s
  | .unknownSupervisorCommandCode code => Sys2Proof.Machine.execUnknownSupervisorCommandCode code s

end Sys2Proof.Machine
end

