-- ==== Sys2Proof/Safety.lean ====
section
/-! DEFINITION. The laws of the whole part that the manual states in prose, as predicates of a state, and the words that the statements use for the conditions on a command. A law is a Bool, or an abbreviation of a decidable proposition, unless it speaks of chains of any length. -/

namespace Sys2Proof

/-! ### Kinds of command -/

/-- The agent command that a write of the code to CMD by tag `t` starts (Table 6-3). -/
def AgentCmd.command (t : Agent) : AgentCmd → Instr
  | .attach => .attach t
  | .detach => .detach t
  | .cancel => .cancel t
  | .acquire => .acquire t
  | .release => .release t
  | .renew => .renew t
  | .send => .send t
  | .receive => .receive t
  | .bind => .bind t
  | .unbind => .unbind t
  | .watch => .watch t
  | .unwatch => .unwatch t

/-- The supervisor command that a write of the code to SCMD starts (Table 9-1). -/
def SupCmd.command : SupCmd → Instr
  | .lockConfig => .lockConfig
  | .queueOpen => .queueOpen
  | .queueClose => .queueClose
  | .queuePurge => .queuePurge
  | .retire => .retire
  | .quiesce => .quiesce
  | .resume => .resume
  | .ackViolation => .ackViolation
  | .clear => .clear

/-- An event that one of the part's own blocks takes: a tick, a countdown, an engine step. The changes of the pins RESET# and FREEZE are not among them. -/
def Instr.isBlockEvent : Instr → Bool
  | .tick | .refclkPeriodCounted => true
  | .leaseCountdown | .leaseExpiry _ | .deadlineCountdown | .deadlineExpiry _ => true
  | .lockSweepStep | .queueSweepStep | .purgeStep => true
  | _ => false

/-- A change of the level of RESET# or FREEZE. -/
def Instr.isPinChange : Instr → Bool
  | .reset | .resetRelease _ | .freezeAssert | .freezeRelease => true
  | _ => false

/-- Every other command is a bus cycle. -/
def Instr.isBusCycle (c : Instr) : Bool :=
  !c.isBlockEvent && !c.isPinChange

/-- The tag of a cycle on the agent page (A[7] low). -/
def Instr.agentPageTag : Instr → Option Agent
  | .attach t | .detach t | .cancel t => some t
  | .acquire t | .release t | .renew t => some t
  | .send t | .receive t | .bind t | .unbind t | .watch t | .unwatch t => some t
  | .noteRead t | .nenWrite t _ | .tickloRead t | .tickhiRead t => some t
  | .registerWrite t off _ => if Offset.supervisorPage off then none else some t
  | .unknownAgentCommandCode t _ => some t
  | _ => none

end Sys2Proof

namespace Sys2Proof.Machine

/-! ### Conditions on a command -/

/-- The part is released from reset, so that it answers the bus and takes events (R163). -/
abbrev Running (s : State) : Prop :=
  s.pins.resetHeld = false

/-- The part is released and agent `t` is ATTACHED: no common check but those of the code and the object can refuse its command (R108). -/
abbrev Ready (s : State) (t : Agent) : Prop :=
  s.pins.resetHeld = false ∧ (s.agent t).port = .attached

/-- OPA of agent `t` names lock `l`. -/
abbrev NamesLock (s : State) (t : Agent) (l : LockId) : Prop :=
  (s.operand t 0).toNat = l.val

/-- OPA of agent `t` names queue `q`. -/
abbrev NamesQueue (s : State) (t : Agent) (q : QueueId) : Prop :=
  (s.operand t 0).toNat = q.val

/-- OPB of agent `t` holds a mode: 0 for NOWAIT or 1 for WAIT. -/
abbrev ModeInRange (s : State) (t : Agent) : Prop :=
  s.operand t 1 = 0 ∨ s.operand t 1 = 1

/-- SOPA names the object `x`. -/
abbrev SupNames {n : Nat} (s : State) (x : Fin n) : Prop :=
  (s.supOperand 0).toNat = x.val

/-- The staging area passes the range checks of a SEND: a length of at most 8, and a reply queue of at most 31 when the mark is set (R55). -/
abbrev StagingInRange (g : Staging) : Prop :=
  g.length.toNat ≤ 8 ∧ (g.replyPresent = true → g.replyQueue.toNat ≤ 31)

/-- A SEND of agent `t` to the OPEN queue `q` passes every check up to the offer (R108, R55). -/
abbrev SendPasses (s : State) (t : Agent) (q : QueueId) (lim : Limits) : Prop :=
  Ready s t ∧ NamesQueue s t q ∧ ModeInRange s t ∧ StagingInRange (s.agent t).staging ∧
    admits (s.queue q).sendMask t = true ∧ (s.queue q).state = .opened lim

/-- A RECEIVE by agent `t` of the OPEN queue `q` passes every check up to the search (R108, R73). -/
abbrev ReceivePasses (s : State) (t : Agent) (q : QueueId) (lim : Limits) : Prop :=
  Ready s t ∧ NamesQueue s t q ∧ ModeInRange s t ∧ admits (s.queue q).recvMask t = true ∧
    (∀ b ∈ (s.queue q).bound, b = t) ∧ (s.queue q).state = .opened lim

/-- The filter of agent `t`'s RECEIVE, in OPD and OPE, takes the message (R71, R72). -/
abbrev FilterTakes (s : State) (t : Agent) (m : Message) : Prop :=
  labelMatches (s.operand t 3) (s.operand t 4) m = true

/-! ### Waiting -/

/-- The queue of the pending RECEIVE of `a`, and the entry that its filter makes there. -/
def State.awaitedReceive (s : State) (a : Agent) : Option (QueueId × Receiver) :=
  match (s.agent a).port with
  | .waiting w =>
    match w.want with
    | .receive q label mask => some (q, { agent := a, label := label, mask := mask })
    | _ => none
  | _ => none

/-- The target and the captured message of a pending SEND. -/
def AgentCtx.awaitedSend (c : AgentCtx) : Option (QueueId × Message) :=
  match c.port with
  | .waiting w =>
    match w.want with
    | .send q m => some (q, m)
    | _ => none
  | _ => none

/-- Does the agent have a pending command? -/
def Port.isWaiting : Port → Bool
  | .waiting _ => true
  | _ => false

/-- Is the pending command a SEND to, or a RECEIVE of, queue `q` (R40)? -/
def AgentCtx.waitsAtQueue (c : AgentCtx) (q : QueueId) : Bool :=
  match c.port with
  | .waiting w =>
    match w.want with
    | .acquire _ => false
    | .send q' _ => q' == q
    | .receive q' _ _ => q' == q
  | _ => false

/-- The deadline remaining of the pending command. -/
def AgentCtx.deadline (c : AgentCtx) : Option Nat :=
  match c.port with
  | .waiting w => w.deadline
  | _ => none

/-- R99: a deadline remaining, when present, is between 1 and 65535. -/
abbrev DeadlineLaw (s : State) : Prop :=
  ∀ a, ∀ d ∈ (s.agent a).deadline, 1 ≤ d ∧ d ≤ 65535

/-- The state with agent `a` in none of the wait lists, every other entry in its order. -/
def State.withoutWaiter (s : State) (a : Agent) : State :=
  { s with
    locks := s.locks.map fun k => { k with waiters := k.waiters.filter (· != a) }
    queues := s.queues.map fun k => { k with receivers := k.receivers.filter (·.agent != a) }
    senderWait := s.senderWait.filter (· != a) }

/-- The state with every wait at queue `q` ended with the code and WAIT_DONE, and gone from the wait lists (R40). -/
def State.waitersEnded (s : State) (q : QueueId) (c : ResCode) : State :=
  { s with
    agents := s.agents.map fun x =>
      if x.waitsAtQueue q then
        { x with port := .attached, res := .plain c, notices := x.notices ||| Notice.bit .waitDone }
      else x
    senderWait := s.senderWait.filter fun a => !(s.agent a).waitsAtQueue q
    queues := s.queues.set q { s.queue q with receivers := [] } }

/-- R2, R36, R37, R114: a pending agent stands in the one wait list of its command, once, with its filter; an agent with none stands in none; no lock's waiter list holds its holder. -/
abbrev WaitLaw (s : State) : Prop :=
  (∀ a l, a ∈ (s.lock l).waiters ↔ (s.agent a).awaitedLock = some l) ∧
  (∀ l, (s.lock l).waiters.Nodup) ∧
  (∀ l, ∀ h ∈ (s.lock l).hold, h.holder ∉ (s.lock l).waiters) ∧
  (∀ q, ∀ r ∈ (s.queue q).receivers, s.awaitedReceive r.agent = some (q, r)) ∧
  (∀ a, ∀ x ∈ s.awaitedReceive a, x.2 ∈ (s.queue x.1).receivers) ∧
  (∀ q, ((s.queue q).receivers.map (·.agent)).Nodup) ∧
  (∀ a, a ∈ s.senderWait ↔ (s.agent a).awaitedSend.isSome) ∧
  s.senderWait.Nodup

/-- R33, R54: the target of a blocked sender is OPEN, and its captured message carries its tag and at most eight words. -/
abbrev BlockedLaw (s : State) : Prop :=
  ∀ a, ∀ x ∈ (s.agent a).awaitedSend,
    (match (s.queue x.1).state with
      | .opened _ => true
      | _ => false) = true ∧ x.2.source = a ∧ x.2.payload.length ≤ 8

/-- The holder on whom the agent waits, if it has a pending ACQUIRE of a HELD lock. -/
def State.waitsOn (s : State) (a : Agent) : Option Agent :=
  match (s.agent a).awaitedLock with
  | none => none
  | some l => (s.lock l).hold.map (·.holder)

/-- The chain of lock holders, each waiting for a lock that the next one holds, leads from the first agent to the second (R13, R14). -/
inductive LeadsTo (s : State) : Agent → Agent → Prop
  | here (a : Agent) : LeadsTo s a a
  | next (a b c : Agent) : s.waitsOn a = some b → LeadsTo s b c → LeadsTo s a c

/-- R14: no agent waits, directly or through a chain, for a lock that it holds itself. -/
def NoCircle (s : State) : Prop :=
  ∀ a b, s.waitsOn a = some b → ¬ LeadsTo s b a

/-! ### Locks -/

/-- R1, R4: a FREE lock has no waiters; a HELD one has a depth from 1 to 15, a clear broken mark, and a lease remaining from 1 to its lease length exactly when that is not 0. -/
def Lock.lawful (k : Lock) : Bool :=
  match k.hold with
  | none => k.waiters.isEmpty
  | some h =>
    decide (1 ≤ h.depth) && decide (h.depth ≤ 15) && !k.broken &&
      (match h.lease with
        | none => k.leaseLength == 0
        | some r => k.leaseLength != 0 && decide (1 ≤ r) && decide (r ≤ k.leaseLength.toNat))

abbrev LocksLawful (s : State) : Prop :=
  ∀ l, (s.lock l).lawful = true

/-- The lease that a lock of this configuration starts with: none for a lease length of 0, else all of it (R18). -/
def fullLease (leaseLength : Word) : Option Nat :=
  if leaseLength = 0 then none else some leaseLength.toNat

/-- Is the next tick the last of the lock's lease? -/
def Lock.onLastTick (k : Lock) : Bool :=
  k.hold.any fun h => h.lease == some 1

/-- What the loss of a HELD lock leaves: the head waiter as holder at depth 1 with a full lease, or FREE with the mark set (R20). -/
def Lock.lost (k : Lock) : Lock :=
  match k.waiters with
  | [] => { k with hold := none, broken := true }
  | w :: rest =>
    { k with
      hold := some { holder := w, depth := 1, lease := fullLease k.leaseLength }
      waiters := rest
      broken := false }

/-- The lock after a tick of the Lock Table (R97). -/
def Lock.afterTick (k : Lock) : Lock :=
  if k.onLastTick then k.lost
  else { k with hold := k.hold.map fun h => { h with lease := h.lease.map (· - 1) } }

/-- The engine state after the lock sweep step at lock `c` (R136). -/
def afterLock (r : Agent) (c : LockId) : EngineState :=
  if h : c.val + 1 < 64 then .retireLocks r ⟨c.val + 1, h⟩ else .retireQueues r 0

/-! ### Queues and the store -/

/-- R34: all URGENT messages stand before all NORMAL ones. -/
def urgentFirst : List Stored → Bool
  | [] => true
  | d :: rest =>
    (d.msg.urgency == .urgent || rest.all fun e => e.msg.urgency == .normal) && urgentFirst rest

/-- R39: capacity 1 to 256, reserve 0 to capacity. -/
def Limits.lawful (lim : Limits) : Bool :=
  decide (1 ≤ lim.capacity) && decide (lim.capacity ≤ 256) && decide (lim.reserve ≤ lim.capacity)

/-- R33, R40: a CLOSED queue has no messages, no bound receiver and no waiters; the held count is at most the capacity; a PURGING queue still holds a message and has no waiters. -/
def Queue.lawful (k : Queue) : Bool :=
  match k.state with
  | .closed => k.messages.isEmpty && k.bound.isNone && k.receivers.isEmpty
  | .opened lim => lim.lawful && decide (k.held ≤ lim.capacity)
  | .purging lim _ =>
    lim.lawful && decide (k.held ≤ lim.capacity) && !k.messages.isEmpty && k.receivers.isEmpty

abbrev QueuesLawful (s : State) : Prop :=
  ∀ q, (s.queue q).lawful = true

/-- R29, R30: the free count and the held counts add to 256, and the free count is never less than the unused reserves. -/
abbrev StoreLaw (s : State) : Prop :=
  s.freeCount + s.queues.sum Queue.held = 256 ∧ s.queues.sum Queue.unusedReserve ≤ s.freeCount

/-- R34 at every queue. -/
abbrev OrderLaw (s : State) : Prop :=
  ∀ q, urgentFirst (s.queue q).messages = true

/-- R80: no message of a queue's list and no blocked sender's message for it matches the filter of a receiver that waits there. -/
abbrev NoMatchLaw (s : State) : Prop :=
  ∀ q, ∀ r ∈ (s.queue q).receivers,
    (∀ d ∈ (s.queue q).messages, r.accepts d.msg = false) ∧
    (∀ a, ∀ x ∈ (s.agent a).awaitedSend, x.1 = q → r.accepts x.2 = false)

/-- R69: no sender waits that could be admitted. -/
abbrev NoRoomLaw (s : State) : Prop :=
  ∀ a, ∀ x ∈ (s.agent a).awaitedSend, s.canAdmit x.1 = false

/-- R36: while a queue has a bound receiver, only that agent can wait there. -/
abbrev BoundLaw (s : State) : Prop :=
  ∀ q, ∀ b ∈ (s.queue q).bound, ∀ r ∈ (s.queue q).receivers, r.agent = b

/-! ### Jobs and agents -/

/-- R133: the engine is IDLE when the Job List is empty and otherwise in a state of its head. -/
def Engine.agrees (e : Engine) : Bool :=
  match e.jobs, e.state with
  | [], .idle => true
  | .retire a :: _, .retireLocks r _ => r == a
  | .retire a :: _, .retireQueues r _ => r == a
  | .purge q :: _, .purge q' => q' == q
  | _, _ => false

/-- Is the queue PURGING? -/
def Queue.isPurging (k : Queue) : Bool :=
  match k.state with
  | .purging _ _ => true
  | _ => false

/-- R132, R133: at most one job per agent and per queue; an agent has one exactly while it is RETIRING, a queue exactly while it is PURGING; the engine works on the head. -/
abbrev JobLaw (s : State) : Prop :=
  s.engine.jobs.Nodup ∧
  (∀ a, Job.retire a ∈ s.engine.jobs ↔ (s.agent a).port = .retiring) ∧
  (∀ q, Job.purge q ∈ s.engine.jobs ↔ (s.queue q).isPurging = true) ∧
  s.engine.agrees = true

/-- The locks that the sweep has passed, for the agent of the job in hand (R136). -/
def EngineState.passedLock (e : EngineState) (a : Agent) (l : LockId) : Bool :=
  match e with
  | .retireLocks r c => r == a && decide (l < c)
  | .retireQueues r _ => r == a
  | _ => false

/-- The queues that the sweep has passed (R138). -/
def EngineState.passedQueue (e : EngineState) (a : Agent) (q : QueueId) : Bool :=
  match e with
  | .retireQueues r c => r == a && decide (q < c)
  | _ => false

/-- R136, R138: a lock the sweep has passed is not held by the retiring agent, and a queue the sweep has passed is not bound to it. -/
abbrev SweepLaw (s : State) : Prop :=
  (∀ l, ∀ h ∈ (s.lock l).hold, s.engine.state.passedLock h.holder l = false) ∧
  (∀ q, ∀ b ∈ (s.queue q).bound, s.engine.state.passedQueue b q = false)

/-- R106: a DETACHED agent holds no lock and is bound to no queue; a DETACHED or RETIRING agent watches nothing. -/
abbrev DetachedLaw (s : State) : Prop :=
  (∀ l, ∀ h ∈ (s.lock l).hold, (s.agent h.holder).port ≠ .detached) ∧
  (∀ q, ∀ b ∈ (s.queue q).bound, (s.agent b).port ≠ .detached) ∧
  (∀ a, (s.agent a).port = .detached ∨ (s.agent a).port = .retiring →
    (s.agent a).watch = .all 4 none)

/-! ### Notices, time and reset -/

/-- The bits of the supervisor's own kinds (Table 10-7). -/
def supervisorKinds : Word := 0x0700

/-- R123, R162: notice sets and enables hold only kinds, and the supervisor's kinds are set in no other context. -/
abbrev NoticeLaw (s : State) : Prop :=
  (∀ a, (s.agent a).notices &&& noticeKinds = (s.agent a).notices) ∧
  (∀ a, (s.agent a).enable &&& noticeKinds = (s.agent a).enable) ∧
  (∀ a, a ≠ s.sup.tag → (s.agent a).notices &&& supervisorKinds = 0)

/-- R89: the interval counter is below the interval length in force, which is 16 to 1048576. -/
abbrev TimeLaw (s : State) : Prop :=
  s.time.counter < s.time.length ∧ 16 ≤ s.time.length ∧ s.time.length ≤ 1048576

/-- R163: while RESET# is held low every block holds its state after RESET. -/
abbrev ResetLaw (s : State) : Prop :=
  s.pins.resetHeld = true →
    s.agents = State.reset.agents ∧ s.locks = State.reset.locks ∧ s.queues = State.reset.queues ∧
    s.freeCount = State.reset.freeCount ∧ s.senderWait = [] ∧ s.time = State.reset.time ∧
    s.engine = State.reset.engine ∧ s.sup = State.reset.sup

/-- R158: while SEL# is released the BIU drives neither RDY nor D. -/
abbrev BusLaw (s : State) : Prop :=
  s.bus.levels.getLast? = some BusLevels.released

/-- The laws together: the invariant of the part. -/
structure Lawful (s : State) : Prop where
  locks : LocksLawful s
  queues : QueuesLawful s
  store : StoreLaw s
  order : OrderLaw s
  wait : WaitLaw s
  blocked : BlockedLaw s
  deadlines : DeadlineLaw s
  noCircle : NoCircle s
  noMatch : NoMatchLaw s
  noRoom : NoRoomLaw s
  bound : BoundLaw s
  jobs : JobLaw s
  sweep : SweepLaw s
  detached : DetachedLaw s
  notices : NoticeLaw s
  time : TimeLaw s
  reset : ResetLaw s
  bus : BusLaw s

end Sys2Proof.Machine
end

