-- ==== Sys2Proof/WellFormed.lean ====
section
/-! DEFINITION. Which commands are well formed: their operands name what the row of spec/opcode_table.json is about. A meaning is total all the same: an ill-formed bus write is routed by its operands (log 13). -/

namespace Sys2Proof

/-- A register "without behaviour of its own" for a write (the row REGISTER_WRITE): an even offset that is none of CMD, NEN, SCMD and TICKDIV, whose writes have rows of their own. -/
def plainWriteOffset (off : Offset) : Bool :=
  !off.getLsbD 0 && !(off == 0x00 || off == 0x14 || off == 0x80 || off == 0x92)

/-- The operand checks, row by row. Commands whose operands' types allow only sensible values have none. -/
def Instr.wellFormed : Instr → Bool
  | .attach _ => true
  | .detach _ => true
  | .cancel _ => true
  | .acquire _ => true
  | .release _ => true
  | .renew _ => true
  | .send _ => true
  | .receive _ => true
  | .bind _ => true
  | .unbind _ => true
  | .watch _ => true
  | .unwatch _ => true
  | .lockConfig => true
  | .queueOpen => true
  | .queueClose => true
  | .queuePurge => true
  | .retire => true
  | .quiesce => true
  | .resume => true
  | .ackViolation => true
  | .clear => true
  | .noteRead _ => true
  | .nenWrite _ _ => true
  | .tickloRead _ => true
  | .tickhiRead _ => true
  | .tickdivWrite _ => true
  | .supervisorPageWriteDenied _ off _ => !off.getLsbD 0 && Offset.supervisorPage off
  | .registerWrite _ off _ => plainWriteOffset off
  | .reset => true
  | .resetRelease _ => true
  | .freezeAssert => true
  | .freezeRelease => true
  | .tick => true
  | .leaseCountdown => true
  | .leaseExpiry _ => true
  | .deadlineCountdown => true
  | .deadlineExpiry _ => true
  | .lockSweepStep => true
  | .queueSweepStep => true
  | .purgeStep => true
  | .refclkPeriodCounted => true
  | .unknownAgentCommandCode _ code => (AgentCmd.ofCode code).isNone
  | .unknownSupervisorCommandCode code => (SupCmd.ofCode code).isNone

end Sys2Proof
end

