-- ==== Sys2Proof/Certificates/Slice0/Obligations.lean ====
section
/-! DEFINITION. The statements for the provers. Each is a proposition about the model, taken from the numbered rules of the spec; OBLIGATIONS.json says which. A next state is written out from the state before, so each statement says its frame too. -/

section Statements

open Sys2Proof Sys2Proof.Machine

/-! ### The queue of commands -/

/-- A step takes the command at the front of the queue and runs it on the state with the queue's rest; with no command waiting the part idles (the model's choice, log 1). -/
def Obligations.StepRunsFrontCommand : Prop :=
  (∀ (c : Instr) (rest : List Instr) (s : State),
     step { s with pending := c :: rest } = exec c { s with pending := rest }) ∧
  (∀ s : State, s.pending = [] → step s = .next s)

/-- No command stops the part, and none touches the queue of commands. That `exec` leaves the queue as it is, RESET too, is the model's choice (logs 1 and 3), and so is that there is a next state from states that the part never reaches (log 17). -/
def Obligations.EveryCommandEndsInNextState : Prop :=
  ∀ (c : Instr) (s : State), ∃ s', exec c s = .next s' ∧ s'.pending = s.pending

/-! ### RESET and the pins -/

/-- RESET# low brings every block to its state after RESET, from any state; while it is held low no bus cycle is answered, the read of any register included (RDY is low until SEL# is released, and D is not driven), no event of a block is taken, and nothing else changes. The model's choices: the queue of commands, the level of FREEZE and the way the coming cycles end are kept (logs 1, 3, 18), the levels of a cycle are recorded (log 4), a cycle of a held part ends unanswered and an event is dropped (log 5), and no tick is due after RESET (log 9). -/
def Obligations.ResetHoldsEveryBlock : Prop :=
  (∀ s : State, ∃ s', exec .reset s = .next s' ∧
     (∀ l, s'.lock l =
       { hold := none, leaseLength := 0, useMask := 0xFFFF, waiters := [], broken := false }) ∧
     (∀ q, s'.queue q =
       { state := .closed, sendMask := 0xFFFF, recvMask := 0xFFFF, bound := none, nextSeq := 0,
         messages := [], receivers := [] }) ∧
     s'.freeCount = 256 ∧ s'.unreserved = 256 ∧ s'.senderWait = [] ∧
     (∀ a, (s'.agent a).port = .detached ∧ (∀ i, (s'.agent a).operands.get i = 0) ∧
       (s'.agent a).res = .plain .none ∧
       (s'.agent a).staging =
         { length := 0, urgency := .normal, replyPresent := false, replyQueue := 0, label := 0,
           payload := .all 8 0 } ∧
       (s'.agent a).delivery =
         { source := 0, length := 0, urgency := .normal, reply := none, label := 0, seq := 0,
           payload := .all 8 0 } ∧
       (s'.agent a).notices = 0 ∧ (s'.agent a).enable = 0 ∧ s'.attention a = false ∧
       (∀ k, (s'.agent a).watch.get k = none) ∧
       (s'.agent a).latch = { valid := false, high := 0 }) ∧
     s'.time =
       { tickdiv := 625, counter := 0, length := 10000, count := 0, lockDue := 0, portDue := 0 } ∧
     s'.engine = { jobs := [], state := .idle } ∧
     (∀ i, s'.supOperand i = 0) ∧ s'.sup.sres = .none ∧ s'.sup.sresv = 0 ∧ s'.sup.permit = 0 ∧
     s'.sup.quiesce = false ∧ s'.sup.capture = none ∧ s'.sup.lockSel = 0 ∧ s'.sup.queueSel = 0 ∧
     s'.bus = { levels := [{ rdy := none, data := none }], abandoned := s.bus.abandoned } ∧
     s'.pins = { resetHeld := true, frozen := s.pins.frozen } ∧ s'.pending = s.pending) ∧
  (∀ (c : Instr) (s : State), s.pins.resetHeld = true →
     (c.isBusCycle = true → exec c s =
       .next { s with bus :=
         { levels := [{ rdy := some false, data := none }, { rdy := none, data := none }]
           abandoned := s.bus.abandoned.tail } }) ∧
     (c.isBlockEvent = true → exec c s = .next s)) ∧
  (∀ (t : Agent) (off : Offset) (s : State), s.pins.resetHeld = true →
     registerRead t off s =
       .next { s with bus :=
         { levels := [{ rdy := some false, data := none }, { rdy := none, data := none }]
           abandoned := s.bus.abandoned.tail } })

/-- The rise of RESET# latches the straps as the supervisor tag and releases the part (of a part not held there is no rise, log 6); FREEZE moves its own level and nothing else, held in reset or not. -/
def Obligations.PinsMoveTheirLevels : Prop :=
  (∀ (x : Agent) (s : State),
     (s.pins.resetHeld = true → exec (.resetRelease x) s =
       .next { s with
         pins := { s.pins with resetHeld := false }, sup := { s.sup with tag := x } }) ∧
     (s.pins.resetHeld = false → exec (.resetRelease x) s = .next s)) ∧
  (∀ s : State,
     exec .freezeAssert s = .next { s with pins := { s.pins with frozen := true } } ∧
     exec .freezeRelease s = .next { s with pins := { s.pins with frozen := false } })

/-! ### The Time Base -/

/-- The Time Base: a counted REFCLK period raises the counter or, at the length in force, ends the interval in a tick; a tick (the command TICK stands for the rest of the interval, log 7) starts the next interval with its length from TICKDIV, raises the tick count, and gives the Lock Table and the Agent Ports one more tick to take (log 9); with FREEZE asserted nothing is counted; a write of TICKDIV leaves the interval in progress; nothing else but RESET changes the count. -/
def Obligations.TimeBaseCountsAndTicks : Prop :=
  (∀ s : State, Running s →
     (s.pins.frozen = true → exec .refclkPeriodCounted s = .next s) ∧
     (s.pins.frozen = false → s.time.counter + 1 < s.time.length →
       exec .refclkPeriodCounted s =
         .next { s with time := { s.time with counter := s.time.counter + 1 } }) ∧
     (s.pins.frozen = false → s.time.length ≤ s.time.counter + 1 →
       exec .refclkPeriodCounted s =
         .next { s with time :=
           { s.time with
             counter := 0
             length := 16 * (if s.time.tickdiv = 0 then 65536 else s.time.tickdiv.toNat)
             count := s.time.count + 1
             lockDue := s.time.lockDue + 1
             portDue := s.time.portDue + 1 } })) ∧
  (∀ s : State, Running s →
     (s.pins.frozen = true → exec .tick s = .next s) ∧
     (s.pins.frozen = false → exec .tick s =
       .next { s with time :=
         { s.time with
           counter := 0
           length := 16 * (if s.time.tickdiv = 0 then 65536 else s.time.tickdiv.toNat)
           count := s.time.count + 1
           lockDue := s.time.lockDue + 1
           portDue := s.time.portDue + 1 } })) ∧
  (∀ (v : Word) (s : State), Running s →
     exec (.tickdivWrite v) s =
       .next (State.answerWrite { s with time := { s.time with tickdiv := v } })) ∧
  (∀ (c : Instr) (s s' : State), exec c s = .next s' →
     c ≠ .tick → c ≠ .refclkPeriodCounted → c ≠ .reset → s'.time.count = s.time.count) ∧
  (∀ b : TimeBase, b.counter < b.length →
     TimeBase.period^[b.length - b.counter] b = b.tick)

/-- A read of TICKLO returns the low half of the tick count and latches the high half of the same count for the reading agent; a read of TICKHI returns the latched half if the latch is valid and the present high half if not, and leaves it invalid; so a TICKLO read and the next TICKHI read give one count, however many ticks fall between. Both are taken in every state of the agent. (The record of what a cycle drove is the model's, logs 4 and 18.) -/
def Obligations.TickLatchReads : Prop :=
  (∀ (t : Agent) (s : State), Running s →
     exec (.tickloRead t) s =
       .next (State.answerRead
         (s.setAgent t { s.agent t with
           latch := { valid := true, high := s.time.count.extractLsb' 16 16 } })
         (s.time.count.extractLsb' 0 16))) ∧
  (∀ (t : Agent) (s : State), Running s →
     exec (.tickhiRead t) s =
       .next (State.answerRead
         (s.setAgent t { s.agent t with latch := { (s.agent t).latch with valid := false } })
         (if (s.agent t).latch.valid then (s.agent t).latch.high
           else s.time.count.extractLsb' 16 16))) ∧
  (∀ (t : Agent) (n : Nat) (s : State), Running s → s.bus.abandoned = [] →
     ∃ s', Host.Core.run Sys2Proof.core (n + 2)
         { s with pending := .tickloRead t :: (List.replicate n .tick ++ [.tickhiRead t]) } =
         .next s' ∧
       s'.bus.levels =
         [{ rdy := some false, data := none },
           { rdy := some true, data := some (s.time.count.extractLsb' 16 16) },
           { rdy := none, data := none }])

/-- The Lock Table's event of one tick: every lease remaining falls by one; a lock on its last tick is lost, its holder gets LEASE_LOST and its head waiter the lock with BROKEN and WAIT_DONE; nothing else changes. The expiry of one lock's lease: the lock is lost and LEASE_LOST is set for the agent that held it. It is the Lock Table's event of the tick, whole (log 10); where the tick is not the last of the lease, the command does nothing. -/
def Obligations.LeaseTickAtEveryLock : Prop :=
  (∀ s : State, Running s → s.pins.frozen = false → 0 < s.time.lockDue → LocksLawful s → WaitLaw s →
     ∃ s', exec .leaseCountdown s = .next s' ∧
       (∀ l, s'.lock l = (s.lock l).afterTick) ∧
       (∀ a, s'.agent a =
         { s.agent a with
           port :=
             if ∃ l, (s.lock l).onLastTick = true ∧ (s.lock l).waiters.head? = some a then .attached
             else (s.agent a).port
           res :=
             if ∃ l, (s.lock l).onLastTick = true ∧ (s.lock l).waiters.head? = some a then
               .granted true
             else (s.agent a).res
           notices :=
             (s.agent a).notices |||
             (if ∃ l, (s.lock l).onLastTick = true ∧ (s.lock l).waiters.head? = some a then
               Notice.waitDone.bit else 0) |||
             (if ∃ l, (s.lock l).onLastTick = true ∧ ∃ h ∈ (s.lock l).hold, h.holder = a then
               Notice.leaseLost.bit else 0) }) ∧
       s' = { s with
         locks := s'.locks, agents := s'.agents
         time := { s.time with lockDue := s.time.lockDue - 1 } }) ∧
  (∀ (l : LockId) (s : State), Running s → LocksLawful s → WaitLaw s →
     ((s.lock l).onLastTick = false → exec (.leaseExpiry l) s = .next s) ∧
     ((s.lock l).onLastTick = true → s.pins.frozen = false → 0 < s.time.lockDue →
       ∃ s', exec (.leaseExpiry l) s = .next s' ∧ exec .leaseCountdown s = .next s' ∧
         s'.lock l = (s.lock l).lost ∧
         (∀ h ∈ (s.lock l).hold, holdsNotice (s'.agent h.holder).notices .leaseLost = true) ∧
         (∀ w ∈ (s.lock l).waiters.head?, (s'.agent w).port = .attached ∧
           (s'.agent w).res = .granted true ∧
           holdsNotice (s'.agent w).notices .waitDone = true)))

/-- With no tick to take, or with FREEZE asserted, no lease and no deadline moves, and an engine step that the engine's state does not call for changes nothing (the model's choices, logs 6 and 11). -/
def Obligations.EventsNotDueChangeNothing : Prop :=
  (∀ (l : LockId) (a : Agent) (s : State), Running s →
     (s.pins.frozen = true ∨ s.time.lockDue = 0 →
       exec .leaseCountdown s = .next s ∧ exec (.leaseExpiry l) s = .next s) ∧
     (s.pins.frozen = true ∨ s.time.portDue = 0 →
       exec .deadlineCountdown s = .next s ∧ exec (.deadlineExpiry a) s = .next s)) ∧
  (∀ s : State, Running s →
     ((∀ r c, s.engine.state ≠ .retireLocks r c) → exec .lockSweepStep s = .next s) ∧
     ((∀ r c, s.engine.state ≠ .retireQueues r c) → exec .queueSweepStep s = .next s) ∧
     ((∀ q, s.engine.state ≠ .purge q) → exec .purgeStep s = .next s))

/-- The Agent Ports' event of one tick: every deadline remaining falls by one; a command on its last tick ends TIMEOUT with WAIT_DONE and its agent leaves its wait list; nothing else changes. The expiry of one agent's deadline: TIMEOUT with WAIT_DONE. It is the Agent Ports' event of the tick, whole (log 10); where the tick is not the last of the deadline, the command does nothing. -/
def Obligations.DeadlineTickAtEveryPort : Prop :=
  (∀ s : State, Running s → s.pins.frozen = false → 0 < s.time.portDue → WaitLaw s → DeadlineLaw s →
     ∃ s', exec .deadlineCountdown s = .next s' ∧
       (∀ a, s'.agent a =
         match (s.agent a).port with
         | .waiting w =>
           if w.deadline = some 1 then
             { s.agent a with
               port := .attached, res := .plain .timeout
               notices := (s.agent a).notices ||| Notice.waitDone.bit }
           else { s.agent a with port := .waiting { w with deadline := w.deadline.map (· - 1) } }
         | _ => s.agent a) ∧
       (∀ l, s'.lock l =
         { s.lock l with
           waiters := (s.lock l).waiters.filter fun a => (s.agent a).deadline != some 1 }) ∧
       (∀ q, s'.queue q =
         { s.queue q with
           receivers := (s.queue q).receivers.filter fun r => (s.agent r.agent).deadline != some 1 }) ∧
       s'.senderWait = (s.senderWait.filter fun a => (s.agent a).deadline != some 1) ∧
       s' = { s with
         agents := s'.agents, locks := s'.locks, queues := s'.queues, senderWait := s'.senderWait
         time := { s.time with portDue := s.time.portDue - 1 } }) ∧
  (∀ (a : Agent) (s : State), Running s → WaitLaw s → DeadlineLaw s →
     ((s.agent a).deadline ≠ some 1 → exec (.deadlineExpiry a) s = .next s) ∧
     ((s.agent a).deadline = some 1 → s.pins.frozen = false → 0 < s.time.portDue →
       ∃ s', exec (.deadlineExpiry a) s = .next s' ∧ exec .deadlineCountdown s = .next s' ∧
         s'.agent a =
           { s.agent a with
             port := .attached, res := .plain .timeout
             notices := (s.agent a).notices ||| Notice.waitDone.bit } ∧
         (∀ l, a ∉ (s'.lock l).waiters) ∧ (∀ q, ∀ r ∈ (s'.queue q).receivers, r.agent ≠ a) ∧
         a ∉ s'.senderWait))

/-! ### Locks -/

/-- ACQUIRE of a FREE lock by an agent in its use mask, in either mode: granted at once, DONE with value 1, BROKEN exactly when the mark was set. -/
def Obligations.AcquireOfFreeLock : Prop :=
  ∀ (t : Agent) (l : LockId) (s : State), Ready s t → NamesLock s t l → ModeInRange s t →
    admits (s.lock l).useMask t = true → (s.lock l).hold = none →
    exec (.acquire t) s =
      .next (State.answerWrite
        ((s.setLock l { s.lock l with
            hold := some
              { holder := t, depth := 1
                lease :=
                  if (s.lock l).leaseLength = 0 then none else some (s.lock l).leaseLength.toNat }
            broken := false }).setAgent t
          { s.agent t with
            res :=
              { code := .done, value := 1, broken := (s.lock l).broken, urgent := false
                reply := false } }))

/-- ACQUIRE by the holder: the depth rises by one, the lease restarts, DONE with the new depth; at depth 15 it is refused DEPTH. -/
def Obligations.AcquireByHolderNests : Prop :=
  ∀ (t : Agent) (l : LockId) (h : Hold) (s : State), Ready s t → NamesLock s t l →
    ModeInRange s t → admits (s.lock l).useMask t = true →
    (s.lock l).hold = some h → h.holder = t →
    (h.depth < 15 → exec (.acquire t) s =
      .next (State.answerWrite
        ((s.setLock l { s.lock l with
            hold := some
              { holder := t, depth := h.depth + 1
                lease :=
                  if (s.lock l).leaseLength = 0 then none
                  else some (s.lock l).leaseLength.toNat } }).setAgent t
          { s.agent t with res := .doneWith (BitVec.ofNat 16 (h.depth + 1)) }))) ∧
    (15 ≤ h.depth → exec (.acquire t) s =
      .next (State.answerWrite (s.setAgent t { s.agent t with res := .plain .depth })))

/-- The checks of ACQUIRE that come before the holder: a mode out of range gives BAD_OPERAND, then a caller outside the use mask gives DENIED, recorded, whatever the lock's state. -/
def Obligations.AcquireChecksModeThenMask : Prop :=
  ∀ (t : Agent) (l : LockId) (s : State), Ready s t → NamesLock s t l →
    (¬ ModeInRange s t → exec (.acquire t) s =
      .next (State.answerWrite (s.refuse t .badOperand))) ∧
    (ModeInRange s t → admits (s.lock l).useMask t = false → exec (.acquire t) s =
      .next (State.answerWrite
        ((s.refuse t .denied).recordViolation t (.command .acquire (BitVec.ofNat 6 l.val)))))

/-- ACQUIRE of a lock HELD by another agent: WOULD_WAIT in NOWAIT mode; in WAIT mode DEADLOCK when the chain of holders leads back to the caller, else QUIESCED in quiesce mode, else pending at the tail of the waiter list. -/
def Obligations.AcquireOfLockHeldByOther : Prop :=
  (∀ (t : Agent) (l : LockId) (h : Hold) (s : State), Ready s t → NamesLock s t l →
     s.operand t 1 = 0 → admits (s.lock l).useMask t = true →
     (s.lock l).hold = some h → h.holder ≠ t →
     exec (.acquire t) s =
       .next (State.answerWrite (s.setAgent t { s.agent t with res := .plain .wouldWait }))) ∧
  (∀ (t : Agent) (l : LockId) (h : Hold) (s : State), Ready s t → NamesLock s t l →
     s.operand t 1 = 1 → admits (s.lock l).useMask t = true →
     (s.lock l).hold = some h → h.holder ≠ t →
     (LeadsTo s h.holder t → exec (.acquire t) s =
       .next (State.answerWrite (s.setAgent t { s.agent t with res := .plain .deadlock }))) ∧
     (¬ LeadsTo s h.holder t → s.sup.quiesce = true → exec (.acquire t) s =
       .next (State.answerWrite (s.setAgent t { s.agent t with res := .plain .quiesced }))) ∧
     (¬ LeadsTo s h.holder t → s.sup.quiesce = false → exec (.acquire t) s =
       .next (State.answerWrite
         ((s.setLock l { s.lock l with waiters := (s.lock l).waiters ++ [t] }).setAgent t
           { s.agent t with
             port := .waiting
               { want := .acquire l
                 deadline :=
                   if s.operand t 2 = 0 then none else some (s.operand t 2).toNat }
             res := .plain .pending }))))

/-- RELEASE and RENEW by an agent that is not the holder are refused NOT_HOLDER; RELEASE at depth 2 or more lowers the depth and keeps the lease; RELEASE to depth zero frees the lock, or passes it in the same event to the head waiter without BROKEN; RENEW restarts the lease and reports the depth. -/
def Obligations.ReleaseAndRenewByHolder : Prop :=
  (∀ (t : Agent) (l : LockId) (s : State), Ready s t → NamesLock s t l →
     ((∀ h ∈ (s.lock l).hold, h.holder ≠ t) → exec (.release t) s =
       .next (State.answerWrite (s.setAgent t { s.agent t with res := .plain .notHolder }))) ∧
     (∀ h, (s.lock l).hold = some h → h.holder = t → 2 ≤ h.depth → exec (.release t) s =
       .next (State.answerWrite
         ((s.setLock l { s.lock l with hold := some { h with depth := h.depth - 1 } }).setAgent t
           { s.agent t with res := .doneWith (BitVec.ofNat 16 (h.depth - 1)) })))) ∧
  (∀ (t : Agent) (l : LockId) (h : Hold) (s : State), Ready s t → NamesLock s t l →
     (s.lock l).hold = some h → h.holder = t → h.depth = 1 →
     ((s.lock l).waiters = [] → exec (.release t) s =
       .next (State.answerWrite
         ((s.setLock l { s.lock l with hold := none, broken := false }).setAgent t
           { s.agent t with res := .doneWith 0 }))) ∧
     (∀ w rest, (s.lock l).waiters = w :: rest → w ≠ t → exec (.release t) s =
       .next (State.answerWrite
         (((s.setLock l { s.lock l with
               hold := some
                 { holder := w, depth := 1
                   lease :=
                     if (s.lock l).leaseLength = 0 then none
                     else some (s.lock l).leaseLength.toNat }
               waiters := rest
               broken := false }).setAgent w
             { s.agent w with
               port := .attached, res := .granted false
               notices := (s.agent w).notices ||| Notice.waitDone.bit }).setAgent t
           { s.agent t with res := .doneWith 0 })))) ∧
  (∀ (t : Agent) (l : LockId) (s : State), Ready s t → NamesLock s t l →
     ((∀ h ∈ (s.lock l).hold, h.holder ≠ t) → exec (.renew t) s =
       .next (State.answerWrite (s.setAgent t { s.agent t with res := .plain .notHolder }))) ∧
     (∀ h, (s.lock l).hold = some h → h.holder = t → exec (.renew t) s =
       .next (State.answerWrite
         ((s.setLock l { s.lock l with
             hold := some
               { h with
                 lease :=
                   if (s.lock l).leaseLength = 0 then none
                   else some (s.lock l).leaseLength.toNat } }).setAgent t
           { s.agent t with res := .doneWith (BitVec.ofNat 16 h.depth) }))))

/-- LOCK_CONFIG writes the lease length and the use mask of a FREE lock and clears its mark; a HELD lock is refused IN_USE and a number above 63 BAD_OBJECT. -/
def Obligations.LockConfigOfFreeLock : Prop :=
  ∀ s : State, Running s →
    (63 < (s.supOperand 0).toNat → exec .lockConfig s =
      .next (State.answerWrite (s.supResult .badObject))) ∧
    (∀ l : LockId, SupNames s l →
      ((s.lock l).hold ≠ none → exec .lockConfig s =
        .next (State.answerWrite (s.supResult .inUse))) ∧
      ((s.lock l).hold = none → exec .lockConfig s =
        .next (State.answerWrite
          ((s.setLock l { s.lock l with
              leaseLength := s.supOperand 1, useMask := s.supOperand 2
              broken := false }).supResult .done))))

/-! ### The Agent Ports -/

/-- The checks common to every write of CMD, in their order: RETIRING, NOT_ATTACHED, BUSY, BAD_COMMAND, and BAD_OBJECT for a lock above 63 or a queue above 31. -/
def Obligations.PortChecksInOrder : Prop :=
  (∀ (t : Agent) (s : State), Running s →
     (∀ c : AgentCmd,
       ((s.agent t).port = .retiring →
         exec (c.command t) s = .next (State.answerWrite (s.refuse t .retiring))) ∧
       ((s.agent t).port = .detached → c ≠ .attach →
         exec (c.command t) s = .next (State.answerWrite (s.refuse t .notAttached))) ∧
       (∀ w, (s.agent t).port = .waiting w → c ≠ .cancel →
         exec (c.command t) s = .next (State.answerWrite (s.refuse t .busy)))) ∧
     (∀ code : Word, (Instr.unknownAgentCommandCode t code).wellFormed = true →
       exec (.unknownAgentCommandCode t code) s =
         .next (State.answerWrite (s.refuse t
           (match (s.agent t).port with
             | .retiring => .retiring
             | .detached => .notAttached
             | .waiting _ => .busy
             | .attached => .badCommand))))) ∧
  (∀ (t : Agent) (c : AgentCmd) (s : State), Ready s t →
     (c ∈ [AgentCmd.acquire, .release, .renew] → 63 < (s.operand t 0).toNat →
       exec (c.command t) s = .next (State.answerWrite (s.refuse t .badObject))) ∧
     (c ∈ [AgentCmd.send, .receive, .bind, .unbind, .watch, .unwatch] →
       31 < (s.operand t 0).toNat →
       exec (c.command t) s = .next (State.answerWrite (s.refuse t .badObject))))

/-- A refusal places its code in RES with the value 0 and no flags and leaves everything else as it was; a DENIED one also fills the violation capture. -/
def Obligations.RefusalChangesOnlyResult : Prop :=
  ∀ (t : Agent) (c : AgentCmd) (s s' : State), Running s → exec (c.command t) s = .next s' →
    (s'.agent t).res.code ∉ [ResCode.done, .pending, .cancelled] →
    ((s'.agent t).res.code ≠ .denied →
      s' = State.answerWrite (s.setAgent t { s.agent t with res := .plain (s'.agent t).res.code })) ∧
    ((s'.agent t).res.code = .denied →
      ∃ object : BitVec 6,
        s' = State.answerWrite
          ((s.setAgent t { s.agent t with res := .plain .denied }).recordViolation t
            (.command c object)))

/-- ATTACH: a DETACHED agent in PERMIT becomes ATTACHED with its notice set empty; one outside it is refused DENIED, recorded with object 0; an ATTACHED agent reads DONE and keeps everything; a WAITING one is refused BUSY and a RETIRING one RETIRING. -/
def Obligations.AttachJudgedAgainstPermit : Prop :=
  ∀ (t : Agent) (s : State), Running s →
    ((s.agent t).port = .detached → admits s.sup.permit t = true → exec (.attach t) s =
      .next (State.answerWrite
        (s.setAgent t { s.agent t with port := .attached, notices := 0, res := .doneWith 0 }))) ∧
    ((s.agent t).port = .detached → admits s.sup.permit t = false → exec (.attach t) s =
      .next (State.answerWrite
        ((s.refuse t .denied).recordViolation t (.command .attach 0)))) ∧
    ((s.agent t).port = .attached → exec (.attach t) s =
      .next (State.answerWrite (s.setAgent t { s.agent t with res := .doneWith 0 }))) ∧
    (∀ w, (s.agent t).port = .waiting w → exec (.attach t) s =
      .next (State.answerWrite (s.refuse t .busy))) ∧
    ((s.agent t).port = .retiring → exec (.attach t) s =
      .next (State.answerWrite (s.refuse t .retiring)))

/-- DETACH: refused BUSY, RETIRING or NOT_ATTACHED by the agent's state; refused HOLDING while the agent holds a lock; otherwise the agent becomes DETACHED, its bindings are dropped, its watch list emptied, its areas and latch cleared, and its operands, notice set and enable kept. -/
def Obligations.DetachLeavesNothingHeld : Prop :=
  (∀ (t : Agent) (s : State), Running s →
    (∀ w, (s.agent t).port = .waiting w → exec (.detach t) s =
      .next (State.answerWrite (s.refuse t .busy))) ∧
    ((s.agent t).port = .retiring → exec (.detach t) s =
      .next (State.answerWrite (s.refuse t .retiring))) ∧
    ((s.agent t).port = .detached → exec (.detach t) s =
      .next (State.answerWrite (s.refuse t .notAttached)))) ∧
  (∀ (t : Agent) (s : State), Ready s t →
    ((∃ l, ∃ h ∈ (s.lock l).hold, h.holder = t) → exec (.detach t) s =
      .next (State.answerWrite (s.refuse t .holding))) ∧
    ((∀ l, ∀ h ∈ (s.lock l).hold, h.holder ≠ t) → ∃ s', exec (.detach t) s = .next s' ∧
      s'.agent t =
        { s.agent t with
          port := .detached, res := .doneWith 0, watch := .all 4 none
          staging :=
            { length := 0, urgency := .normal, replyPresent := false, replyQueue := 0, label := 0,
              payload := .all 8 0 }
          delivery :=
            { source := 0, length := 0, urgency := .normal, reply := none, label := 0, seq := 0,
              payload := .all 8 0 }
          latch := { valid := false, high := 0 } } ∧
      (∀ a, a ≠ t → s'.agent a = s.agent a) ∧
      (∀ q, s'.queue q =
        { s.queue q with
          bound := if (s.queue q).bound = some t then none else (s.queue q).bound }) ∧
      s' = State.answerWrite { s with agents := s'.agents, queues := s'.queues }))

/-- CANCEL: a WAITING agent leaves its wait list and ends CANCELLED without a notice; an ATTACHED one is refused NOTHING_PENDING. -/
def Obligations.CancelEndsWaitWithoutNotice : Prop :=
  ∀ (t : Agent) (s : State), Running s → WaitLaw s →
    ((s.agent t).port = .attached → exec (.cancel t) s =
      .next (State.answerWrite (s.refuse t .nothingPending))) ∧
    (∀ w, (s.agent t).port = .waiting w → exec (.cancel t) s =
      .next (State.answerWrite
        ((s.withoutWaiter t).setAgent t
          { s.agent t with port := .attached, res := .plain .cancelled })))

/-- A read of NOTE returns the notice set and removes it, and a write of NOTE is ignored; a kind once present stays until its agent reads NOTE or writes ATTACH, or CLEAR or RESET comes. (An ATTACH from ATTACHED keeps the set too: AttachJudgedAgainstPermit. SUPERVISOR_PAGE_WRITE_DENIED of the supervisor's own tag is left out, for it is a write of the supervisor, CLEAR among them, log 13.) -/
def Obligations.NoticesReadAndKept : Prop :=
  (∀ (t : Agent) (v : Word) (s : State), Running s →
     exec (.noteRead t) s =
       .next (State.answerRead (s.setAgent t { s.agent t with notices := 0 }) (s.agent t).notices) ∧
     exec (.registerWrite t 0x12 v) s = .next s.answerWrite) ∧
  (∀ (c : Instr) (a : Agent) (n : Notice) (s s' : State), exec c s = .next s' →
     c.wellFormed = true →
     c ≠ .noteRead a → c ≠ .attach a → c ≠ .clear → c ≠ .reset →
     (∀ off v, c ≠ .supervisorPageWriteDenied s.sup.tag off v) →
     holdsNotice (s.agent a).notices n = true → holdsNotice (s'.agent a).notices n = true)

/-- A write of NEN replaces the enable with the kinds the value holds, in every state of the agent; apart from RESET, only an agent's own cycles change its enable. -/
def Obligations.NoticeEnableIsItsOwners : Prop :=
  (∀ (t : Agent) (v : Word) (s : State), Running s →
     exec (.nenWrite t v) s =
       .next (State.answerWrite (s.setAgent t { s.agent t with enable := v &&& 0x073F }))) ∧
  (∀ (c : Instr) (a : Agent) (s s' : State), exec c s = .next s' → c.wellFormed = true →
     c ≠ .reset → c.agentPageTag ≠ some a → (s'.agent a).enable = (s.agent a).enable)

/-- ATNn# is asserted exactly when the notice set and the notice enable share a kind. -/
def Obligations.AttentionIsSharedKind : Prop :=
  ∀ (a : Agent) (s : State),
    s.attention a = true ↔
      ∃ i < 16, (s.agent a).notices.getLsbD i = true ∧ (s.agent a).enable.getLsbD i = true

/-- A cycle of one tag on the agent page leaves the operands, the staging area, the notice enable, the watch list and the tick latch of every other agent as they were. It says nothing of another agent's state, RES, RESV, notices or delivery area, which such a cycle can change (a RELEASE that grants, R15). -/
def Obligations.OtherAgentsOperandsStagingEnableWatchAndLatchKept : Prop :=
  ∀ (c : Instr) (t a : Agent) (s s' : State), exec c s = .next s' → c.agentPageTag = some t →
    a ≠ t →
    (s'.agent a).operands = (s.agent a).operands ∧ (s'.agent a).staging = (s.agent a).staging ∧
    (s'.agent a).enable = (s.agent a).enable ∧ (s'.agent a).watch = (s.agent a).watch ∧
    (s'.agent a).latch = (s.agent a).latch

/-- The agent states change along the lines of Table 6-2: outside CLEAR and RESET, only an ATTACH attaches a DETACHED agent, only its own DETACH detaches an ATTACHED one, only its own ACQUIRE, SEND or RECEIVE makes it wait, only RETIRE makes it RETIRING, and only the end of the retirement ends that. -/
def Obligations.AgentStatesFollowTable : Prop :=
  ∀ (c : Instr) (a : Agent) (s s' : State), exec c s = .next s' → c.wellFormed = true →
    c ≠ .clear → c ≠ .reset → (∀ off v, c ≠ .supervisorPageWriteDenied s.sup.tag off v) →
    WaitLaw s → JobLaw s →
    match (s.agent a).port, (s'.agent a).port with
    | .detached, .detached => True
    | .detached, .attached => c = .attach a
    | .detached, _ => False
    | .attached, .attached => True
    | .attached, .detached => c = .detach a
    | .attached, .waiting _ => c = .acquire a ∨ c = .send a ∨ c = .receive a
    | .attached, .retiring => c = .retire
    | .waiting w, .waiting w' => w'.want = w.want
    | .waiting _, .attached => True
    | .waiting _, .retiring => c = .retire
    | .waiting _, .detached => False
    | .retiring, .retiring => True
    | .retiring, .detached => c = .queueSweepStep
    | .retiring, _ => False

/-! ### Supervision and the register window -/

/-- QUIESCE turns quiesce mode on and RESUME turns it off, each DONE whatever the mode was; while it is on, no command and no event makes an agent wait that did not wait before. -/
def Obligations.QuiesceModeRefusesNewWaits : Prop :=
  (∀ s : State, Running s →
     exec .quiesce s =
       .next (State.answerWrite { s with
         sup := { s.sup with quiesce := true, sres := .done, sresv := 0 } }) ∧
     exec .resume s =
       .next (State.answerWrite { s with
         sup := { s.sup with quiesce := false, sres := .done, sresv := 0 } })) ∧
  (∀ (c : Instr) (a : Agent) (s s' : State), exec c s = .next s' → s.sup.quiesce = true →
     (s'.agent a).port.isWaiting = true → (s.agent a).port.isWaiting = true)

/-- The first violation fills the capture and sets VIOLATION, a further one sets the more flag alone, ACK_VIOLATION empties it with DONE and keeps the notice; a write to any offset of the supervisor page by another tag changes nothing there and is such a violation, with its offset. -/
def Obligations.ViolationsAreCaptured : Prop :=
  (∀ (t : Agent) (e : ViolationEvent) (s : State),
     (s.sup.capture = none → s.recordViolation t e =
       State.setAgent
         { s with sup := { s.sup with capture := some { tag := t, event := e, more := false } } }
         s.sup.tag
         { s.agent s.sup.tag with
           notices := (s.agent s.sup.tag).notices ||| Notice.violation.bit }) ∧
     (∀ c, s.sup.capture = some c → s.recordViolation t e =
       { s with sup := { s.sup with capture := some { c with more := true } } })) ∧
  (∀ s : State, Running s → exec .ackViolation s =
     .next (State.answerWrite { s with
       sup := { s.sup with capture := none, sres := .done, sresv := 0 } })) ∧
  (∀ (t : Agent) (off : Offset) (v : Word) (s : State), Running s → t ≠ s.sup.tag →
     (Instr.supervisorPageWriteDenied t off v).wellFormed = true →
     exec (.supervisorPageWriteDenied t off v) s =
       .next (State.answerWrite (s.recordViolation t (.pageWrite off))) ∧
     exec (.registerWrite t off v) s = exec (.supervisorPageWriteDenied t off v) s)

/-- A write of CMD or of SCMD of a command's code, with the numbers of Table 10-3, is that command (the model's choices, logs 13 and 14); every other code is unknown, and an unknown code written to SCMD by the supervisor is refused BAD_COMMAND. -/
def Obligations.CommandCodesStartCommands : Prop :=
  (∀ (t : Agent) (s : State),
     (∀ c : AgentCmd, exec (.registerWrite t 0x00 c.code) s = exec (c.command t) s) ∧
     (∀ c : SupCmd, exec (.registerWrite s.sup.tag 0x80 c.code) s = exec c.command s)) ∧
  (∀ (code : Word) (s : State), Running s →
     (Instr.unknownSupervisorCommandCode code).wellFormed = true →
     exec (.unknownSupervisorCommandCode code) s =
       .next (State.answerWrite { s with sup := { s.sup with sres := .badCommand, sresv := 0 } })) ∧
  (∀ x ∈ [(AgentCmd.attach, (0x01 : Word)), (.detach, 0x02), (.cancel, 0x03), (.acquire, 0x10),
       (.release, 0x11), (.renew, 0x12), (.send, 0x20), (.receive, 0x21), (.bind, 0x22),
       (.unbind, 0x23), (.watch, 0x24), (.unwatch, 0x25)],
     x.1.code = x.2 ∧
     ∀ (t : Agent) (s : State), exec (.registerWrite t 0x00 x.2) s = exec (x.1.command t) s) ∧
  (∀ x ∈ [(SupCmd.lockConfig, (0x40 : Word)), (.queueOpen, 0x41), (.queueClose, 0x42),
       (.queuePurge, 0x43), (.retire, 0x44), (.quiesce, 0x45), (.resume, 0x46),
       (.ackViolation, 0x47), (.clear, 0x4F)],
     x.1.code = x.2 ∧
     ∀ s : State, exec (.registerWrite s.sup.tag 0x80 x.2) s = exec x.1.command s) ∧
  (∀ (t : Agent) (code : Word),
     ((Instr.unknownAgentCommandCode t code).wellFormed = true ↔
       code ∉ [0x01, 0x02, 0x03, 0x10, 0x11, 0x12, 0x20, 0x21, 0x22, 0x23, 0x24, 0x25]) ∧
     ((Instr.unknownSupervisorCommandCode code).wellFormed = true ↔
       code ∉ [0x40, 0x41, 0x42, 0x43, 0x44, 0x45, 0x46, 0x47, 0x4F]))

/-- Writes of the registers without behaviour of their own: each stores its fields, and a write to a read-only register or an unused offset changes nothing. A write cycle that is answered holds RDY low, raises it and drives nothing once SEL# is released; one that its master abandons never raises it, and its access stands (the record of the levels is the model's, logs 4 and 18). -/
def Obligations.PlainRegisterWrites : Prop :=
  (∀ (t : Agent) (v : Word) (s : State), Running s →
     (∀ i : Fin 5, exec (.registerWrite t (BitVec.ofNat 8 (2 + 2 * i.val)) v) s =
       .next (State.answerWrite (s.setAgent t { s.agent t with
         operands := (s.agent t).operands.set i v }))) ∧
     exec (.registerWrite t 0x1A v) s =
       .next (State.answerWrite (s.setAgent t { s.agent t with
         staging := { (s.agent t).staging with
           length := v.extractLsb' 0 4
           urgency := if v.getLsbD 4 then .urgent else .normal
           replyPresent := v.getLsbD 5
           replyQueue := v.extractLsb' 6 6 } })) ∧
     exec (.registerWrite t 0x1C v) s =
       .next (State.answerWrite (s.setAgent t { s.agent t with
         staging := { (s.agent t).staging with label := v } })) ∧
     (∀ i : Fin 8, exec (.registerWrite t (BitVec.ofNat 8 (0x1E + 2 * i.val)) v) s =
       .next (State.answerWrite (s.setAgent t { s.agent t with
         staging := { (s.agent t).staging with
           payload := (s.agent t).staging.payload.set i v } }))) ∧
     (∀ off : Offset, off.getLsbD 0 = false →
       0x0C ≤ off.toNat ∧ off.toNat ≤ 0x12 ∨ off = 0x16 ∨ off = 0x18 ∨
         0x2E ≤ off.toNat ∧ off.toNat ≤ 0x7E →
       exec (.registerWrite t off v) s = .next s.answerWrite)) ∧
  (∀ (v : Word) (s : State), Running s →
     (∀ i : Fin 5, exec (.registerWrite s.sup.tag (BitVec.ofNat 8 (0x82 + 2 * i.val)) v) s =
       .next (State.answerWrite
         { s with sup := { s.sup with operands := s.sup.operands.set i v } })) ∧
     exec (.registerWrite s.sup.tag 0x90 v) s =
       .next (State.answerWrite { s with sup := { s.sup with permit := v } }) ∧
     exec (.registerWrite s.sup.tag 0xA2 v) s =
       .next (State.answerWrite { s with sup := { s.sup with lockSel := v } }) ∧
     exec (.registerWrite s.sup.tag 0xAC v) s =
       .next (State.answerWrite { s with sup := { s.sup with queueSel := v } }) ∧
     (∀ off : Offset, off.getLsbD 0 = false →
       off = 0x8C ∨ off = 0x8E ∨ 0x94 ≤ off.toNat ∧ off.toNat ≤ 0xA0 ∨
         0xA4 ≤ off.toNat ∧ off.toNat ≤ 0xAA ∨ 0xAE ≤ off.toNat →
       exec (.registerWrite s.sup.tag off v) s = .next s.answerWrite)) ∧
  (∀ s : State,
     (s.bus.abandoned.head? ≠ some true → s.answerWrite =
       { s with bus :=
         { levels :=
             [{ rdy := some false, data := none }, { rdy := some true, data := none },
               { rdy := none, data := none }]
           abandoned := s.bus.abandoned.tail } }) ∧
     (s.bus.abandoned.head? = some true → s.answerWrite =
       { s with bus :=
         { levels := [{ rdy := some false, data := none }, { rdy := none, data := none }]
           abandoned := s.bus.abandoned.tail } }))

/-- What PSTATE, RES (in the numbers of Table 6-6) and RESV read of a context, and what the inspection registers read of the selected lock and queue: 0 while the selector names none, and 0 to every tag but the supervisor's. -/
def Obligations.RegistersRead : Prop :=
  (∀ (t : Agent) (s : State),
     ((s.agent t).port = .detached → s.readReg t 0x10 = 0) ∧
     ((s.agent t).port = .attached → s.readReg t 0x10 = 1) ∧
     ((s.agent t).port = .retiring → s.readReg t 0x10 = 3) ∧
     (∀ l d, (s.agent t).port = .waiting { want := .acquire l, deadline := d } →
       s.readReg t 0x10 = BitVec.ofNat 16 (l.val * 256 + 1 * 4 + 2)) ∧
     (∀ q m d, (s.agent t).port = .waiting { want := .send q m, deadline := d } →
       s.readReg t 0x10 = BitVec.ofNat 16 (q.val * 256 + 2 * 4 + 2)) ∧
     (∀ q label mask d, (s.agent t).port = .waiting { want := .receive q label mask, deadline := d } →
       s.readReg t 0x10 = BitVec.ofNat 16 (q.val * 256 + 3 * 4 + 2)) ∧
     s.readReg t 0x0C = (s.agent t).res.code.number ∧
     (∀ x ∈ [(ResCode.none, (0 : Word)), (.done, 1), (.pending, 2), (.timeout, 3), (.cancelled, 4),
         (.retired, 5), (.cleared, 6), (.busy, 8), (.notAttached, 9), (.retiring, 10),
         (.badCommand, 11), (.badObject, 12), (.badOperand, 13), (.denied, 14), (.notHolder, 15),
         (.depth, 16), (.deadlock, 17), (.wouldWait, 18), (.quiesced, 19), (.closed, 20),
         (.purging, 21), (.inUse, 22), (.holding, 23), (.nothingPending, 24), (.duplicate, 25),
         (.noRoom, 26)],
       x.1.number = x.2 ∧ ((s.agent t).res.code = x.1 → s.readReg t 0x0C = x.2)) ∧
     (∀ c, (s.agent t).res = .plain c → s.readReg t 0x0E = 0) ∧
     (∀ v, (s.agent t).res = .doneWith v → s.readReg t 0x0E = v) ∧
     (∀ b, (s.agent t).res = .granted b → s.readReg t 0x0E = if b then 0x8001 else 0x0001) ∧
     (∀ m : Message, m.payload.length ≤ 8 → (s.agent t).res = .delivered m →
       s.readReg t 0x0E =
         BitVec.ofNat 16 (m.payload.length + (if m.urgency = .urgent then 0x4000 else 0) +
           (if m.reply = none then 0 else 0x2000)))) ∧
  (∀ s : State,
     (∀ (t : Agent) (off : Offset), t ≠ s.sup.tag → off.getLsbD 7 = true → s.readReg t off = 0) ∧
     (∀ off ∈ [(0xA4 : Offset), 0xA6, 0xA8, 0xAA], 63 < s.sup.lockSel.toNat →
       s.readReg s.sup.tag off = 0) ∧
     (∀ off ∈ [(0xAE : Offset), 0xB0, 0xB2, 0xB4, 0xB6, 0xB8], 31 < s.sup.queueSel.toNat →
       s.readReg s.sup.tag off = 0) ∧
     (∀ l : LockId, s.sup.lockSel.toNat = l.val →
       ((s.lock l).hold = none → s.readReg s.sup.tag 0xA4 = if (s.lock l).broken then 0x4000 else 0) ∧
       (∀ h, (s.lock l).hold = some h → (s.lock l).broken = false → h.depth ≤ 15 →
         s.readReg s.sup.tag 0xA4 = BitVec.ofNat 16 (0x8000 + h.holder.val * 256 + h.depth)) ∧
       s.readReg s.sup.tag 0xA6 = BitVec.ofNat 16 (((s.lock l).hold.bind (·.lease)).getD 0) ∧
       ((s.lock l).waiters.length ≤ 15 → s.readReg s.sup.tag 0xA8 =
         BitVec.ofNat 16 (((s.lock l).waiters.head?.elim 0 (·.val)) * 256 + (s.lock l).waiters.length)) ∧
       s.readReg s.sup.tag 0xAA = (s.lock l).useMask) ∧
     (∀ q : QueueId, s.sup.queueSel.toNat = q.val → (s.queue q).held ≤ 256 →
       ((s.queue q).state = .closed →
         s.readReg s.sup.tag 0xAE = BitVec.ofNat 16 (s.queue q).held ∧
         s.readReg s.sup.tag 0xB0 = 0 ∧ s.readReg s.sup.tag 0xB2 = 0) ∧
       (∀ lim, (s.queue q).state = .opened lim →
         s.readReg s.sup.tag 0xAE = BitVec.ofNat 16 (0x4000 + (s.queue q).held) ∧
         s.readReg s.sup.tag 0xB0 = BitVec.ofNat 16 lim.capacity ∧
         s.readReg s.sup.tag 0xB2 = BitVec.ofNat 16 lim.reserve) ∧
       (∀ lim b, (s.queue q).state = .purging lim b →
         s.readReg s.sup.tag 0xAE =
           BitVec.ofNat 16 (0x8000 + (if b then 0x2000 else 0) + (s.queue q).held) ∧
         s.readReg s.sup.tag 0xB0 = BitVec.ofNat 16 lim.capacity ∧
         s.readReg s.sup.tag 0xB2 = BitVec.ofNat 16 lim.reserve) ∧
       ((s.queue q).bound = none → s.readReg s.sup.tag 0xB6 = 0) ∧
       (∀ b, (s.queue q).bound = some b →
         s.readReg s.sup.tag 0xB6 = BitVec.ofNat 16 (0x8000 + b.val)) ∧
       s.readReg s.sup.tag 0xB8 = (s.queue q).nextSeq))

/-- The rest of the register window: each readable register of the two pages returns the fields of Tables 10-1 and 10-2 in the layouts of section 10.4, the notice kinds at the bits of Table 10-7 and SRES in the numbers of Table 6-6, and the write-only and unused offsets read 0. A read cycle returns the register's contents and, but for NOTE, TICKLO and TICKHI, changes nothing else; one that is answered holds RDY low, raises it with the value on D, and drives nothing once SEL# is released; one that its master abandons never raises it (the record of the levels is the model's, logs 4 and 18; that bit 0 of an offset is ignored is log 15). -/
def Obligations.RegistersReadTheirFields : Prop :=
  (∀ (t : Agent) (s : State),
     (∀ i : Fin 5, s.readReg t (BitVec.ofNat 8 (2 + 2 * i.val)) = (s.agent t).operands.get i) ∧
     s.readReg t 0x12 = (s.agent t).notices ∧ s.readReg t 0x14 = (s.agent t).enable ∧
     s.readReg t 0x1A =
       BitVec.ofNat 16 ((s.agent t).staging.replyQueue.toNat * 64 +
         (if (s.agent t).staging.replyPresent then 32 else 0) +
         (if (s.agent t).staging.urgency = .urgent then 16 else 0) +
         (s.agent t).staging.length.toNat) ∧
     s.readReg t 0x1C = (s.agent t).staging.label ∧
     (∀ i : Fin 8, s.readReg t (BitVec.ofNat 8 (0x1E + 2 * i.val)) =
       (s.agent t).staging.payload.get i) ∧
     ((s.agent t).delivery.length ≤ 8 → s.readReg t 0x2E =
       BitVec.ofNat 16 ((s.agent t).delivery.source.val * 4096 +
         (s.agent t).delivery.reply.elim 0 (fun q => q.val * 64 + 32) +
         (if (s.agent t).delivery.urgency = .urgent then 16 else 0) +
         (s.agent t).delivery.length)) ∧
     s.readReg t 0x30 = (s.agent t).delivery.label ∧ s.readReg t 0x32 = (s.agent t).delivery.seq ∧
     (∀ i : Fin 8, s.readReg t (BitVec.ofNat 8 (0x34 + 2 * i.val)) =
       (s.agent t).delivery.payload.get i) ∧
     (∀ off : Offset, off.getLsbD 0 = false → off = 0x00 ∨ 0x44 ≤ off.toNat ∧ off.toNat ≤ 0x7E →
       s.readReg t off = 0)) ∧
  (∀ s : State,
     (∀ i : Fin 5, s.readReg s.sup.tag (BitVec.ofNat 8 (0x82 + 2 * i.val)) = s.supOperand i) ∧
     s.readReg s.sup.tag 0x8C = s.sup.sres.number ∧ s.readReg s.sup.tag 0x8E = s.sup.sresv ∧
     (∀ x ∈ [(ResCode.none, (0 : Word)), (.done, 1), (.notAttached, 9), (.retiring, 10),
         (.badCommand, 11), (.badObject, 12), (.badOperand, 13), (.closed, 20), (.inUse, 22),
         (.noRoom, 26)],
       s.sup.sres = x.1 → s.readReg s.sup.tag 0x8C = x.2) ∧
     s.readReg s.sup.tag 0x90 = s.sup.permit ∧ s.readReg s.sup.tag 0x92 = s.time.tickdiv ∧
     s.readReg s.sup.tag 0x94 = BitVec.ofNat 16 s.freeCount ∧
     s.readReg s.sup.tag 0x96 = BitVec.ofNat 16 s.unreserved ∧
     (s.engine.jobs.length ≤ 48 → s.readReg s.sup.tag 0x98 =
       match s.engine.state with
       | .idle => BitVec.ofNat 16 s.engine.jobs.length
       | .retireLocks r _ => BitVec.ofNat 16 (0x4000 + r.val * 256 + s.engine.jobs.length)
       | .retireQueues r _ => BitVec.ofNat 16 (0x8000 + r.val * 256 + s.engine.jobs.length)
       | .purge q => BitVec.ofNat 16 (0xC000 + q.val * 256 + s.engine.jobs.length)) ∧
     s.readReg s.sup.tag 0x9A =
       BitVec.ofNat 16
         ((if s.sup.quiesce = true ∧ (∀ a, (s.agent a).port.isWaiting = false) ∧
             s.engine.state = .idle then 2 else 0) +
           (if s.sup.quiesce then 1 else 0)) ∧
     (s.sup.capture = none → ∀ off ∈ [(0x9C : Offset), 0x9E, 0xA0], s.readReg s.sup.tag off = 0) ∧
     (∀ a c object more,
       s.sup.capture = some { tag := a, event := .command c object, more := more } →
       s.readReg s.sup.tag 0x9C =
         BitVec.ofNat 16 (0x8000 + (if more then 0x4000 else 0) + a.val) ∧
       s.readReg s.sup.tag 0x9E = c.code ∧ s.readReg s.sup.tag 0xA0 = object.setWidth 16) ∧
     (∀ a off more, s.sup.capture = some { tag := a, event := .pageWrite off, more := more } →
       s.readReg s.sup.tag 0x9C =
         BitVec.ofNat 16 (0xB000 + (if more then 0x4000 else 0) + a.val) ∧
       s.readReg s.sup.tag 0x9E = off.setWidth 16 ∧ s.readReg s.sup.tag 0xA0 = 0) ∧
     s.readReg s.sup.tag 0xA2 = s.sup.lockSel ∧ s.readReg s.sup.tag 0xAC = s.sup.queueSel ∧
     s.readReg s.sup.tag 0xBA = BitVec.ofNat 16 s.sup.tag.val ∧
     (∀ q : QueueId, s.sup.queueSel.toNat = q.val → (s.queue q).receivers.length ≤ 16 →
       s.senderWait.length ≤ 16 → s.readReg s.sup.tag 0xB4 =
         BitVec.ofNat 16
           ((s.senderWait.filter fun a => (s.agent a).awaitedSend.any (·.1 == q)).length * 256 +
             (s.queue q).receivers.length)) ∧
     (∀ off : Offset, off.getLsbD 0 = false → off = 0x80 ∨ 0xBC ≤ off.toNat →
       s.readReg s.sup.tag off = 0)) ∧
  (∀ x ∈ [(Notice.waitDone, 0), (.leaseLost, 1), (.watch 0, 2), (.watch 1, 3), (.watch 2, 4),
       (.watch 3, 5), (.violation, 8), (.jobDone, 9), (.storeEmpty, 10)],
     x.1.bit = BitVec.ofNat 16 (2 ^ x.2) ∧ ∀ w : Word, holdsNotice w x.1 = w.getLsbD x.2) ∧
  (∀ (t : Agent) (s : State),
     registerRead t 0x12 s = exec (.noteRead t) s ∧
     registerRead t 0x16 s = exec (.tickloRead t) s ∧
     registerRead t 0x18 s = exec (.tickhiRead t) s) ∧
  (∀ (t : Agent) (off : Offset) (s : State), Running s → off.getLsbD 0 = false →
     off ∉ [(0x12 : Offset), 0x16, 0x18] →
     registerRead t off s = .next (State.answerRead s (s.readReg t off))) ∧
  (∀ (v : Word) (s : State),
     (s.bus.abandoned.head? ≠ some true → s.answerRead v =
       { s with bus :=
         { levels :=
             [{ rdy := some false, data := none }, { rdy := some true, data := some v },
               { rdy := none, data := none }]
           abandoned := s.bus.abandoned.tail } }) ∧
     (s.bus.abandoned.head? = some true → s.answerRead v =
       { s with bus :=
         { levels := [{ rdy := some false, data := none }, { rdy := none, data := none }]
           abandoned := s.bus.abandoned.tail } }))

/-- CLEAR in one event: every lock FREE, every queue CLOSED, every agent DETACHED with CLEARED in RES, the store full, the Job List empty; the configuration that R155 names is kept. (That the ticks due are kept is log 9, the queue of commands log 1 and the answer of the cycle logs 4 and 18, all the model's.) -/
def Obligations.ClearKeepsConfiguration : Prop :=
  ∀ s : State, Running s → ∃ s', exec .clear s = .next s' ∧
    (∀ l, s'.lock l = { s.lock l with hold := none, waiters := [], broken := false }) ∧
    (∀ q, s'.queue q =
      { state := .closed, sendMask := 0xFFFF, recvMask := 0xFFFF, bound := none, nextSeq := 0,
        messages := [], receivers := [] }) ∧
    (∀ a, (s'.agent a).port = .detached ∧ (∀ i, (s'.agent a).operands.get i = 0) ∧
      (s'.agent a).res = .plain .cleared ∧
      (s'.agent a).staging =
        { length := 0, urgency := .normal, replyPresent := false, replyQueue := 0, label := 0,
          payload := .all 8 0 } ∧
      (s'.agent a).delivery =
        { source := 0, length := 0, urgency := .normal, reply := none, label := 0, seq := 0,
          payload := .all 8 0 } ∧
      (s'.agent a).notices = 0 ∧ (s'.agent a).enable = (s.agent a).enable ∧
      (∀ k, (s'.agent a).watch.get k = none) ∧
      (s'.agent a).latch = { valid := false, high := 0 }) ∧
    s'.freeCount = 256 ∧ s'.unreserved = 256 ∧ s'.senderWait = [] ∧
    s'.engine = { jobs := [], state := .idle } ∧
    s'.sup = { s.sup with quiesce := false, capture := none, sres := .done, sresv := 0 } ∧
    s'.time = s.time ∧ s'.pins = s.pins ∧ s'.pending = s.pending ∧
    s'.bus = s.answerWrite.bus

/-- CLEAR and a REFCLK period, a tick, a countdown or an engine step leave the same state in either order. CLEAR and one of the two expiry rows leave the same state but for the ticks that are due: after CLEAR no lease and no deadline is on its last tick, so the tick stays due (the model's reading, log 10). That CLEAR keeps the ticks due is log 9, and that an engine step after CLEAR changes nothing is log 6. -/
def Obligations.ClearMeetsBlockEvents : Prop :=
  (∀ (c : Instr) (s : State), Running s →
    c ∈ [Instr.refclkPeriodCounted, .tick, .leaseCountdown, .deadlineCountdown, .lockSweepStep,
      .queueSweepStep, .purgeStep] →
    ∃ s',
      Host.Core.run Sys2Proof.core 2 { s with pending := [.clear, c] } = .next s' ∧
      Host.Core.run Sys2Proof.core 2 { s with pending := [c, .clear] } = .next s') ∧
  (∀ (l : LockId) (a : Agent) (c : Instr) (s : State), Running s →
    c ∈ [Instr.leaseExpiry l, .deadlineExpiry a] →
    ∃ s1 s2,
      Host.Core.run Sys2Proof.core 2 { s with pending := [.clear, c] } = .next s1 ∧
      Host.Core.run Sys2Proof.core 2 { s with pending := [c, .clear] } = .next s2 ∧
      s1.time = s.time ∧ s2 = { s1 with time := s2.time } ∧
      s2.time = { s.time with lockDue := s2.time.lockDue, portDue := s2.time.portDue })

/-! ### Queues -/

/-- QUEUE_OPEN, its checks in their order, BAD_OBJECT, IN_USE, BAD_OPERAND, NO_ROOM; accepted, the queue is OPEN with the limits and masks of the operands and holds nothing, and STORE_EMPTY is reckoned. -/
def Obligations.QueueOpenChecksAndOpens : Prop :=
  ∀ s : State, Running s →
    (31 < (s.supOperand 0).toNat → exec .queueOpen s =
      .next (State.answerWrite (s.supResult .badObject))) ∧
    (∀ q : QueueId, SupNames s q →
      ((s.queue q).state ≠ .closed → exec .queueOpen s =
        .next (State.answerWrite (s.supResult .inUse))) ∧
      ((s.queue q).state = .closed →
        ((s.supOperand 1 = 0 ∨ 256 < (s.supOperand 1).toNat ∨
            (s.supOperand 1).toNat < (s.supOperand 2).toNat) →
          exec .queueOpen s = .next (State.answerWrite (s.supResult .badOperand))) ∧
        (s.supOperand 1 ≠ 0 → (s.supOperand 1).toNat ≤ 256 →
          (s.supOperand 2).toNat ≤ (s.supOperand 1).toNat →
          (s.unreserved < (s.supOperand 2).toNat →
            exec .queueOpen s = .next (State.answerWrite (s.supResult .noRoom))) ∧
          ((s.supOperand 2).toNat ≤ s.unreserved →
            exec .queueOpen s = .next (State.answerWrite (reckonStoreEmpty s
              ((s.setQueue q
                { state := .opened
                    { capacity := (s.supOperand 1).toNat, reserve := (s.supOperand 2).toNat }
                  sendMask := s.supOperand 3, recvMask := s.supOperand 4, bound := none
                  nextSeq := 0, messages := [], receivers := [] }).supResult .done)))))))

/-- STORE_EMPTY is set by an event of the store exactly when the whole event brought the unreserved free count from above 0 to 0. -/
def Obligations.StoreEmptyOnFallToZero : Prop :=
  ∀ (c : Instr) (t : Agent) (s s' : State), exec c s = .next s' →
    c ∈ [Instr.send t, .receive t, .queueOpen, .queueClose, .queuePurge, .purgeStep] →
    (holdsNotice (s'.agent s.sup.tag).notices .storeEmpty = true ↔
      holdsNotice (s.agent s.sup.tag).notices .storeEmpty = true ∨
        0 < s.unreserved ∧ s'.unreserved = 0)

/-- QUEUE_CLOSE by the state of the queue: an OPEN queue loses its waiting parties (CLOSED, WAIT_DONE) and closes at once when it holds nothing, with an admission pass, or becomes PURGING with close-after-purge and a job; a PURGING one gets the mark; a CLOSED one stays. QUEUE_PURGE by the state of the queue: an OPEN queue loses its waiting parties (PURGING, WAIT_DONE) and, when it holds messages, becomes PURGING with a job; a PURGING one is left as it is; a CLOSED one is refused CLOSED. -/
def Obligations.QueueCloseAndPurgeByState : Prop :=
  (∀ s : State, Running s → WaitLaw s →
     (31 < (s.supOperand 0).toNat → exec .queueClose s =
       .next (State.answerWrite (s.supResult .badObject))) ∧
     (∀ q : QueueId, SupNames s q →
       ((s.queue q).state = .closed → exec .queueClose s =
         .next (State.answerWrite (s.supResult .done))) ∧
       (∀ lim b, (s.queue q).state = .purging lim b → exec .queueClose s =
         .next (State.answerWrite
           ((s.setQueue q { s.queue q with state := .purging lim true }).supResult .done))) ∧
       (∀ lim, (s.queue q).state = .opened lim →
         ((s.queue q).messages = [] → exec .queueClose s =
           .next (State.answerWrite (reckonStoreEmpty s
             ((admissionPass ((s.waitersEnded q .closed).setQueue q
               { s.queue q with state := .closed, bound := none, receivers := [] })).supResult .done)))) ∧
         ((s.queue q).messages ≠ [] → exec .queueClose s =
           .next (State.answerWrite
             ((((s.waitersEnded q .closed).setQueue q
               { s.queue q with state := .purging lim true, receivers := [] }).addJob
               (.purge q)).supResult .done)))))) ∧
  (∀ s : State, Running s → WaitLaw s →
     (31 < (s.supOperand 0).toNat → exec .queuePurge s =
       .next (State.answerWrite (s.supResult .badObject))) ∧
     (∀ q : QueueId, SupNames s q →
       ((s.queue q).state = .closed → exec .queuePurge s =
         .next (State.answerWrite (s.supResult .closed))) ∧
       (∀ lim b, (s.queue q).state = .purging lim b → exec .queuePurge s =
         .next (State.answerWrite (s.supResult .done))) ∧
       (∀ lim, (s.queue q).state = .opened lim →
         ((s.queue q).messages = [] → exec .queuePurge s =
           .next (State.answerWrite ((s.waitersEnded q .purging).supResult .done))) ∧
         ((s.queue q).messages ≠ [] → exec .queuePurge s =
           .next (State.answerWrite
             ((((s.waitersEnded q .purging).setQueue q
               { s.queue q with state := .purging lim false, receivers := [] }).addJob
               (.purge q)).supResult .done))))))

/-- BIND, its checks in their order. UNBIND by the bound receiver drops the binding; by any other agent it is refused DENIED and recorded. -/
def Obligations.BindAndUnbind : Prop :=
  (∀ (t : Agent) (q : QueueId) (s : State), Ready s t → NamesQueue s t q →
     (admits (s.queue q).recvMask t = false → exec (.bind t) s =
       .next (State.answerWrite
         ((s.refuse t .denied).recordViolation t (.command .bind (BitVec.ofNat 6 q.val))))) ∧
     (admits (s.queue q).recvMask t = true →
       ((s.queue q).state = .closed → exec (.bind t) s =
         .next (State.answerWrite (s.refuse t .closed))) ∧
       (∀ lim b, (s.queue q).state = .purging lim b → exec (.bind t) s =
         .next (State.answerWrite (s.refuse t .purging))) ∧
       (∀ lim, (s.queue q).state = .opened lim →
         (∀ b, (s.queue q).bound = some b → b ≠ t → exec (.bind t) s =
           .next (State.answerWrite (s.refuse t .inUse))) ∧
         ((s.queue q).bound = some t → exec (.bind t) s =
           .next (State.answerWrite (s.setAgent t { s.agent t with res := .doneWith 0 }))) ∧
         ((s.queue q).bound = none → (s.queue q).receivers ≠ [] → exec (.bind t) s =
           .next (State.answerWrite (s.refuse t .inUse))) ∧
         ((s.queue q).bound = none → (s.queue q).receivers = [] → exec (.bind t) s =
           .next (State.answerWrite
             ((s.setQueue q { s.queue q with bound := some t }).setAgent t
               { s.agent t with res := .doneWith 0 })))))) ∧
  (∀ (t : Agent) (q : QueueId) (s : State), Ready s t → NamesQueue s t q →
     ((s.queue q).bound = some t → exec (.unbind t) s =
       .next (State.answerWrite
         ((s.setQueue q { s.queue q with bound := none }).setAgent t
           { s.agent t with res := .doneWith 0 }))) ∧
     ((s.queue q).bound ≠ some t → exec (.unbind t) s =
       .next (State.answerWrite
         ((s.refuse t .denied).recordViolation t (.command .unbind (BitVec.ofNat 6 q.val))))))

/-- WATCH, its checks in their order: the queue takes the lowest-numbered empty position, whatever the state of the queue. UNWATCH empties the position that holds the queue and reports it; a queue not watched is refused BAD_OPERAND. -/
def Obligations.WatchAndUnwatch : Prop :=
  (∀ (t : Agent) (q : QueueId) (s : State), Ready s t → NamesQueue s t q →
     (admits (s.queue q).recvMask t = false → exec (.watch t) s =
       .next (State.answerWrite
         ((s.refuse t .denied).recordViolation t (.command .watch (BitVec.ofNat 6 q.val))))) ∧
     (admits (s.queue q).recvMask t = true →
       ((∃ k, (s.agent t).watch.get k = some q) → exec (.watch t) s =
         .next (State.answerWrite (s.refuse t .duplicate))) ∧
       ((∀ k, (s.agent t).watch.get k ≠ some q) →
         ((∀ k, (s.agent t).watch.get k ≠ none) → exec (.watch t) s =
           .next (State.answerWrite (s.refuse t .noRoom))) ∧
         (∀ k, (s.agent t).watch.get k = none → (∀ j < k, (s.agent t).watch.get j ≠ none) →
           exec (.watch t) s =
             .next (State.answerWrite (s.setAgent t
               { s.agent t with
                 watch := (s.agent t).watch.set k (some q)
                 res := .doneWith (BitVec.ofNat 16 k.val) })))))) ∧
  (∀ (t : Agent) (q : QueueId) (s : State), Ready s t → NamesQueue s t q →
     ((∀ k, (s.agent t).watch.get k ≠ some q) → exec (.unwatch t) s =
       .next (State.answerWrite (s.refuse t .badOperand))) ∧
     (∀ k, (s.agent t).watch.get k = some q → (∀ j < k, (s.agent t).watch.get j ≠ some q) →
       exec (.unwatch t) s =
         .next (State.answerWrite (s.setAgent t
           { s.agent t with
             watch := (s.agent t).watch.set k none
             res := .doneWith (BitVec.ofNat 16 k.val) }))))

/-! ### Messages -/

/-- A message matches a filter exactly when its label agrees with the match label wherever the match mask has a one. -/
def Obligations.FilterMatchesLabelUnderMask : Prop :=
  ∀ (label mask : Word) (m : Message),
    labelMatches label mask m = true ↔
      ∀ i < 16, mask.getLsbD i = true → m.label.getLsbD i = label.getLsbD i

/-- The message that a SEND captures: the caller's tag as source, the first length-many payload words of the staging area, and a reply queue exactly when the mark is set. What a delivery writes: the whole delivery area, from the message, with 0 at and beyond its length. -/
def Obligations.CaptureAndDeliveryAreFaithful : Prop :=
  (∀ (t : Agent) (g : Staging), StagingInRange g →
     (g.capture t).source = t ∧ (g.capture t).urgency = g.urgency ∧ (g.capture t).label = g.label ∧
     (g.capture t).payload.length = g.length.toNat ∧
     (∀ i : Fin 8, i.val < g.length.toNat → (g.capture t).payload[i.val]? = some (g.payload.get i)) ∧
     (g.replyPresent = false → (g.capture t).reply = none) ∧
     (g.replyPresent = true → ∃ q : QueueId, q.val = g.replyQueue.toNat ∧
       (g.capture t).reply = some q)) ∧
  (∀ d : Stored, d.msg.payload.length ≤ 8 →
     (Delivery.ofStored d).source = d.msg.source ∧
     (Delivery.ofStored d).length = d.msg.payload.length ∧
     (Delivery.ofStored d).urgency = d.msg.urgency ∧ (Delivery.ofStored d).reply = d.msg.reply ∧
     (Delivery.ofStored d).label = d.msg.label ∧ (Delivery.ofStored d).seq = d.seq ∧
     (∀ i : Fin 8, (Delivery.ofStored d).payload.get i = (d.msg.payload[i.val]?).getD 0))

/-- The checks of SEND and of RECEIVE, each in its order: the operands, the mask and the binding (recorded DENIED), then the state of the queue. -/
def Obligations.SendAndReceiveChecksInOrder : Prop :=
  (∀ (t : Agent) (q : QueueId) (s : State), Ready s t → NamesQueue s t q →
     (¬ (ModeInRange s t ∧ StagingInRange (s.agent t).staging) → exec (.send t) s =
       .next (State.answerWrite (s.refuse t .badOperand))) ∧
     (ModeInRange s t → StagingInRange (s.agent t).staging →
       (admits (s.queue q).sendMask t = false → exec (.send t) s =
         .next (State.answerWrite
           ((s.refuse t .denied).recordViolation t (.command .send (BitVec.ofNat 6 q.val))))) ∧
       (admits (s.queue q).sendMask t = true →
         ((s.queue q).state = .closed → exec (.send t) s =
           .next (State.answerWrite (s.refuse t .closed))) ∧
         (∀ lim b, (s.queue q).state = .purging lim b → exec (.send t) s =
           .next (State.answerWrite (s.refuse t .purging)))))) ∧
  (∀ (t : Agent) (q : QueueId) (s : State), Ready s t → NamesQueue s t q →
     (¬ ModeInRange s t → exec (.receive t) s =
       .next (State.answerWrite (s.refuse t .badOperand))) ∧
     (ModeInRange s t →
       ((admits (s.queue q).recvMask t = false ∨ ∃ b, (s.queue q).bound = some b ∧ b ≠ t) →
         exec (.receive t) s =
           .next (State.answerWrite
             ((s.refuse t .denied).recordViolation t (.command .receive (BitVec.ofNat 6 q.val))))) ∧
       (admits (s.queue q).recvMask t = true → (∀ b ∈ (s.queue q).bound, b = t) →
         ((s.queue q).state = .closed → exec (.receive t) s =
           .next (State.answerWrite (s.refuse t .closed))) ∧
         (∀ lim b, (s.queue q).state = .purging lim b → exec (.receive t) s =
           .next (State.answerWrite (s.refuse t .purging))))))

/-- The hand-off of a SEND's message to the first waiting receiver whose filter matches: it takes the queue's next number and no slot, and the receiver's RECEIVE completes DONE with WAIT_DONE. -/
def Obligations.SendHandsOffToWaitingReceiver : Prop :=
  ∀ (t : Agent) (q : QueueId) (lim : Limits) (m : Message) (pre post : List Receiver)
    (r : Receiver) (s : State), SendPasses s t q lim → WaitLaw s →
    (s.agent t).staging.capture t = m → (s.queue q).receivers = pre ++ r :: post →
    (∀ x ∈ pre, labelMatches x.label x.mask m = false) → labelMatches r.label r.mask m = true →
    exec (.send t) s =
      .next (State.answerWrite
        (((s.setQueue q { s.queue q with
              nextSeq := (s.queue q).nextSeq + 1, receivers := pre ++ post }).setAgent r.agent
            { s.agent r.agent with
              port := .attached, res := .delivered m
              delivery := .ofStored { msg := m, seq := (s.queue q).nextSeq }
              notices := (s.agent r.agent).notices ||| Notice.waitDone.bit }).setAgent t
          { s.agent t with res := .doneWith (s.queue q).nextSeq }))

/-- Admission at SEND: with no waiting receiver that matches, and the held count below the capacity with a reserved or an unreserved slot to take, the message takes a slot and the queue's next number, an URGENT one behind the last URGENT one and a NORMAL one at the tail, and a rise from 0 to 1 notifies the watchers. -/
def Obligations.SendAdmitsToMessageList : Prop :=
  ∀ (t : Agent) (q : QueueId) (lim : Limits) (m : Message) (urgents normals : List Stored)
    (s : State), SendPasses s t q lim →
    (s.agent t).staging.capture t = m →
    (∀ x ∈ (s.queue q).receivers, labelMatches x.label x.mask m = false) →
    (s.queue q).messages.length < lim.capacity →
    ((s.queue q).messages.length < lim.reserve ∨ 0 < s.unreserved) →
    (s.queue q).messages = urgents ++ normals →
    (∀ d ∈ urgents, d.msg.urgency = .urgent) → (∀ d ∈ normals, d.msg.urgency = .normal) →
    ∃ s', exec (.send t) s = .next (State.answerWrite (reckonStoreEmpty s s')) ∧
      s'.queue q =
        { s.queue q with
          nextSeq := (s.queue q).nextSeq + 1
          messages :=
            if m.urgency = .urgent then urgents ++ { msg := m, seq := (s.queue q).nextSeq } :: normals
            else urgents ++ normals ++ [{ msg := m, seq := (s.queue q).nextSeq }] } ∧
      (∀ x, x ≠ q → s'.queue x = s.queue x) ∧
      s'.freeCount = s.freeCount - 1 ∧
      (∀ a, s'.agent a =
        { s.agent a with
          res := if a = t then .doneWith (s.queue q).nextSeq else (s.agent a).res
          notices := (s'.agent a).notices }) ∧
      (∀ a n, holdsNotice (s'.agent a).notices n = true ↔
        holdsNotice (s.agent a).notices n = true ∨
          (s.queue q).messages = [] ∧ ∃ k, n = .watch k ∧ (s.agent a).watch.get k = some q) ∧
      s' = { s with queues := s'.queues, agents := s'.agents, freeCount := s'.freeCount }

/-- A SEND that finds neither a receiver nor room: refused WOULD_WAIT in NOWAIT mode, QUIESCED in quiesce mode, and otherwise pending at the tail of the Sender Wait List with its captured message. -/
def Obligations.SendWithoutRoom : Prop :=
  ∀ (t : Agent) (q : QueueId) (lim : Limits) (m : Message) (s : State), SendPasses s t q lim →
    (s.agent t).staging.capture t = m →
    (∀ x ∈ (s.queue q).receivers, labelMatches x.label x.mask m = false) →
    (lim.capacity ≤ (s.queue q).messages.length ∨
      lim.reserve ≤ (s.queue q).messages.length ∧ s.unreserved = 0) →
    (s.operand t 1 = 0 → exec (.send t) s =
      .next (State.answerWrite (s.refuse t .wouldWait))) ∧
    (s.operand t 1 = 1 → s.sup.quiesce = true → exec (.send t) s =
      .next (State.answerWrite (s.refuse t .quiesced))) ∧
    (s.operand t 1 = 1 → s.sup.quiesce = false → exec (.send t) s =
      .next (State.answerWrite
        (State.setAgent { s with senderWait := s.senderWait ++ [t] } t
          { s.agent t with
            port := .waiting
              { want := .send q m
                deadline := if s.operand t 2 = 0 then none else some (s.operand t 2).toNat }
            res := .plain .pending })))

/-- A RECEIVE takes the first message of the list that its filter matches: the message leaves the list and its slot, fills the delivery area, and the admission pass runs in the same event. -/
def Obligations.ReceiveTakesFirstMatch : Prop :=
  ∀ (t : Agent) (q : QueueId) (lim : Limits) (pre post : List Stored) (d : Stored) (s : State),
    ReceivePasses s t q lim → (s.queue q).messages = pre ++ d :: post →
    (∀ x ∈ pre, ¬ FilterTakes s t x.msg) → FilterTakes s t d.msg →
    exec (.receive t) s =
      .next (State.answerWrite (reckonStoreEmpty s (admissionPass
        ((State.setQueue { s with freeCount := s.freeCount + 1 } q
            { s.queue q with messages := pre ++ post }).setAgent t
          { s.agent t with delivery := .ofStored d, res := .delivered d.msg }))))

/-- A RECEIVE that finds nothing in the list takes the oldest blocked sender's message that matches: it takes the queue's next number and no slot, and the sender completes DONE with WAIT_DONE. -/
def Obligations.ReceiveTakesFromBlockedSender : Prop :=
  ∀ (t a : Agent) (q : QueueId) (lim : Limits) (m : Message) (pre post : List Agent) (s : State),
    ReceivePasses s t q lim → WaitLaw s →
    (∀ x ∈ (s.queue q).messages, ¬ FilterTakes s t x.msg) →
    s.senderWait = pre ++ a :: post → (s.agent a).awaitedSend = some (q, m) → FilterTakes s t m →
    (∀ x ∈ pre, ∀ m', (s.agent x).awaitedSend = some (q, m') → ¬ FilterTakes s t m') →
    exec (.receive t) s =
      .next (State.answerWrite
        (((State.setQueue { s with senderWait := pre ++ post } q
              { s.queue q with nextSeq := (s.queue q).nextSeq + 1 }).setAgent a
            { s.agent a with
              port := .attached, res := .doneWith (s.queue q).nextSeq
              notices := (s.agent a).notices ||| Notice.waitDone.bit }).setAgent t
          { s.agent t with
            delivery := .ofStored { msg := m, seq := (s.queue q).nextSeq }
            res := .delivered m }))

/-- A RECEIVE whose two searches fail: refused WOULD_WAIT in NOWAIT mode, QUIESCED in quiesce mode, and otherwise pending at the tail of the receiver wait list with its filter. -/
def Obligations.ReceiveFindsNothing : Prop :=
  ∀ (t : Agent) (q : QueueId) (lim : Limits) (s : State), ReceivePasses s t q lim →
    (∀ x ∈ (s.queue q).messages, ¬ FilterTakes s t x.msg) →
    (∀ a ∈ s.senderWait, ∀ m, (s.agent a).awaitedSend = some (q, m) → ¬ FilterTakes s t m) →
    (s.operand t 1 = 0 → exec (.receive t) s =
      .next (State.answerWrite (s.refuse t .wouldWait))) ∧
    (s.operand t 1 = 1 → s.sup.quiesce = true → exec (.receive t) s =
      .next (State.answerWrite (s.refuse t .quiesced))) ∧
    (s.operand t 1 = 1 → s.sup.quiesce = false → exec (.receive t) s =
      .next (State.answerWrite
        ((s.setQueue q { s.queue q with
            receivers := (s.queue q).receivers ++
              [{ agent := t, label := s.operand t 3, mask := s.operand t 4 }] }).setAgent t
          { s.agent t with
            port := .waiting
              { want := .receive q (s.operand t 3) (s.operand t 4)
                deadline := if s.operand t 2 = 0 then none else some (s.operand t 2).toNat }
            res := .plain .pending })))

/-- The admission pass walks the Sender Wait List once from its oldest entry. An entry whose queue has room for its message leaves the list and completes DONE with the number the message took and WAIT_DONE; the message takes a slot and its place in the list, an URGENT one behind the last URGENT one and a NORMAL one at the tail; a rise from 0 to 1 sets WATCHk for every agent that watches the queue in position k; nothing else changes. Any other entry keeps its place. -/
def Obligations.AdmissionPassServesOldestFirst : Prop :=
  (∀ s : State, s.senderWait = [] → admissionPass s = s) ∧
  (∀ (s : State) (a : Agent) (rest : List Agent), s.senderWait = a :: rest →
    admissionPass s = rest.foldl serveSender (serveSender s a)) ∧
  (∀ (s : State) (a : Agent) (q : QueueId) (m : Message),
    (s.agent a).awaitedSend = some (q, m) →
    (∀ x ∈ (s.queue q).receivers, labelMatches x.label x.mask m = false) →
    (s.canAdmit q = false → serveSender s a = s) ∧
    (s.canAdmit q = true → ∀ urgents normals : List Stored,
      (s.queue q).messages = urgents ++ normals →
      (∀ d ∈ urgents, d.msg.urgency = .urgent) → (∀ d ∈ normals, d.msg.urgency = .normal) →
      ∃ s', serveSender s a = s' ∧
        s'.queue q =
          { s.queue q with
            nextSeq := (s.queue q).nextSeq + 1
            messages :=
              if m.urgency = .urgent then
                urgents ++ { msg := m, seq := (s.queue q).nextSeq } :: normals
              else urgents ++ normals ++ [{ msg := m, seq := (s.queue q).nextSeq }] } ∧
        (∀ x, x ≠ q → s'.queue x = s.queue x) ∧
        s'.freeCount = s.freeCount - 1 ∧
        s'.senderWait = s.senderWait.filter (· != a) ∧
        (∀ x, s'.agent x =
          { s.agent x with
            port := if x = a then .attached else (s.agent x).port
            res := if x = a then .doneWith (s.queue q).nextSeq else (s.agent x).res
            notices := (s'.agent x).notices }) ∧
        (∀ x, ∀ i < 16, (s'.agent x).notices.getLsbD i = true ↔
          (s.agent x).notices.getLsbD i = true ∨ x = a ∧ i = 0 ∨
            (s.queue q).messages = [] ∧
              ∃ k : Fin 4, i = k.val + 2 ∧ (s.agent x).watch.get k = some q) ∧
        s' = { s with
          queues := s'.queues, agents := s'.agents, freeCount := s'.freeCount
          senderWait := s'.senderWait }))

/-! ### The Maintenance Engine -/

/-- RETIRE, its checks in their order; an accepted one makes the agent RETIRING, ends its pending command RETIRED without a notice, empties its watch list and appends its job, and the engine leaves IDLE when the Job List was empty. -/
def Obligations.RetireStartsRetirement : Prop :=
  ∀ s : State, Running s → WaitLaw s →
    (15 < (s.supOperand 0).toNat → exec .retire s =
      .next (State.answerWrite (s.supResult .badObject))) ∧
    (∀ a : Agent, SupNames s a →
      ((s.agent a).port = .detached → exec .retire s =
        .next (State.answerWrite (s.supResult .notAttached))) ∧
      ((s.agent a).port = .retiring → exec .retire s =
        .next (State.answerWrite (s.supResult .retiring))) ∧
      ((s.agent a).port = .attached ∨ (s.agent a).port.isWaiting = true → exec .retire s =
        .next (State.answerWrite (State.supResult
          { (s.withoutWaiter a).setAgent a
              { s.agent a with
                port := .retiring, watch := .all 4 none
                res := if (s.agent a).port.isWaiting then .plain .retired else (s.agent a).res } with
            engine :=
              { jobs := s.engine.jobs ++ [.retire a]
                state := if s.engine.jobs = [] then .retireLocks a 0 else s.engine.state } }
          .done))))

/-- A lock sweep step: a lock that the retiring agent holds is lost, whole and without LEASE_LOST, to its head waiter with BROKEN or to nobody with the mark set; then the cursor rises, or the queue sweep starts. -/
def Obligations.LockSweepStepTakesLock : Prop :=
  ∀ (r : Agent) (c : LockId) (s : State), Running s → s.engine.state = .retireLocks r c →
    ((∀ h ∈ (s.lock c).hold, h.holder ≠ r) → exec .lockSweepStep s =
      .next { s with engine := { s.engine with state := afterLock r c } }) ∧
    (∀ h, (s.lock c).hold = some h → h.holder = r →
      ((s.lock c).waiters = [] → exec .lockSweepStep s =
        .next { s.setLock c (s.lock c).lost with
          engine := { s.engine with state := afterLock r c } }) ∧
      (∀ w rest, (s.lock c).waiters = w :: rest → exec .lockSweepStep s =
        .next { (s.setLock c (s.lock c).lost).setAgent w
            { s.agent w with
              port := .attached, res := .granted true
              notices := (s.agent w).notices ||| Notice.waitDone.bit } with
          engine := { s.engine with state := afterLock r c } }))

/-- A queue sweep step below queue 31: a binding of the retiring agent is dropped, and the cursor rises. The queue sweep step at queue 31 ends the retirement: the agent becomes DETACHED with its areas and latch cleared and RES and RESV kept, the job leaves, JOB_DONE is set for the supervisor, and the engine goes on to the next job or to IDLE. -/
def Obligations.QueueSweepStepsEndRetirement : Prop :=
  (∀ (r : Agent) (c c' : QueueId) (s : State), Running s → s.engine.state = .retireQueues r c →
     c'.val = c.val + 1 →
     exec .queueSweepStep s =
       .next { s.setQueue c { s.queue c with
           bound := if (s.queue c).bound = some r then none else (s.queue c).bound } with
         engine := { s.engine with state := .retireQueues r c' } }) ∧
  (∀ (r : Agent) (jobs : List Job) (s : State), Running s → s.engine.state = .retireQueues r 31 →
     s.engine.jobs = .retire r :: jobs →
     ∃ s', exec .queueSweepStep s = .next s' ∧
       s'.queue 31 =
         { s.queue 31 with
           bound := if (s.queue 31).bound = some r then none else (s.queue 31).bound } ∧
       (∀ q, q ≠ 31 → s'.queue q = s.queue q) ∧
       s'.agent r =
         { s.agent r with
           port := .detached, watch := .all 4 none
           staging :=
             { length := 0, urgency := .normal, replyPresent := false, replyQueue := 0, label := 0,
               payload := .all 8 0 }
           delivery :=
             { source := 0, length := 0, urgency := .normal, reply := none, label := 0, seq := 0,
               payload := .all 8 0 }
           latch := { valid := false, high := 0 }
           notices :=
             (s.agent r).notices ||| (if r = s.sup.tag then Notice.jobDone.bit else 0) } ∧
       (∀ a, a ≠ r → s'.agent a =
         { s.agent a with
           notices :=
             (s.agent a).notices ||| (if a = s.sup.tag then Notice.jobDone.bit else 0) }) ∧
       s'.engine =
         { jobs := jobs
           state := match jobs with
             | [] => .idle
             | .retire a :: _ => .retireLocks a 0
             | .purge q :: _ => .purge q } ∧
       s' = { s with agents := s'.agents, queues := s'.queues, engine := s'.engine })

/-- A purge step that leaves messages: the head is discarded, its slot freed, and an admission pass runs. The purge step that empties the queue: it returns to OPEN, or becomes CLOSED by close-after-purge; one admission pass runs, the job ends, and JOB_DONE is set for the supervisor. -/
def Obligations.PurgeStepsEmptyQueue : Prop :=
  (∀ (q : QueueId) (lim : Limits) (b : Bool) (d e : Stored) (rest : List Stored) (s : State),
     Running s → s.engine.state = .purge q → (s.queue q).state = .purging lim b →
     (s.queue q).messages = d :: e :: rest →
     exec .purgeStep s =
       .next (reckonStoreEmpty s (admissionPass
         (State.setQueue { s with freeCount := s.freeCount + 1 } q
           { s.queue q with messages := e :: rest })))) ∧
  (∀ (q : QueueId) (lim : Limits) (b : Bool) (d : Stored) (s : State),
     Running s → s.engine.state = .purge q → (s.queue q).state = .purging lim b →
     (s.queue q).messages = [d] →
     exec .purgeStep s =
       .next (reckonStoreEmpty s
         (State.endJob (admissionPass
           (State.setQueue { s with freeCount := s.freeCount + 1 } q
             (if b then { s.queue q with messages := [], state := .closed, bound := none }
               else { s.queue q with messages := [], state := .opened lim }))))))

/-! ### Invariants that every step keeps -/

/-- Every law of the part, the invariant that the statements of the last section keep, holds in the state after RESET. -/
def Obligations.LawsHoldAtReset : Prop :=
  Lawful State.reset

/-- Every step keeps the interval counter below the length in force, the notice sets and enables within the kinds, and the supervisor's kinds in its context alone. -/
def Obligations.EveryStepKeepsTimeAndNoticeLaws : Prop :=
  (∀ s s' : State, TimeLaw s → step s = .next s' → TimeLaw s') ∧
  (∀ s s' : State, ResetLaw s → NoticeLaw s → step s = .next s' → ResetLaw s' ∧ NoticeLaw s')

/-- Every step keeps the laws of the lock records. -/
def Obligations.EveryStepKeepsLockLaws : Prop :=
  ∀ s s' : State, LocksLawful s → step s = .next s' → LocksLawful s'

/-- Every step keeps the absence of circles of waiting agents. -/
def Obligations.EveryStepKeepsNoCircle : Prop :=
  ∀ s s' : State, NoCircle s → step s = .next s' → NoCircle s'

/-- Every step keeps the counts of the store: 256 slots in all, and the unused reserves covered by free slots. -/
def Obligations.EveryStepKeepsStoreCounts : Prop :=
  ∀ s s' : State, QueuesLawful s → StoreLaw s → step s = .next s' → QueuesLawful s' ∧ StoreLaw s'

/-- Every step keeps all URGENT messages before all NORMAL ones in every message list. -/
def Obligations.EveryStepKeepsUrgentFirst : Prop :=
  ∀ s s' : State, OrderLaw s → step s = .next s' → OrderLaw s'

/-- Every step keeps each pending agent in exactly the wait list of its command, and no other agent in any. Every step keeps one job for each RETIRING agent and each PURGING queue, and the engine at the head. -/
def Obligations.EveryStepKeepsWaitListsAndJobs : Prop :=
  (∀ s s' : State, QueuesLawful s → WaitLaw s → JobLaw s → step s = .next s' → WaitLaw s') ∧
  (∀ s s' : State, QueuesLawful s → WaitLaw s → JobLaw s → step s = .next s' → JobLaw s')

/-- Every step keeps all the laws of the part together, and so does the read cycle of any register, which is no row of the table (log 4). -/
def Obligations.EveryStepKeepsEveryLaw : Prop :=
  (∀ s s' : State, Lawful s → step s = .next s' → Lawful s') ∧
  (∀ (t : Agent) (off : Offset) (s s' : State), Lawful s → registerRead t off s = .next s' →
     Lawful s')

end Statements
end

