-- ==== Sys2Proof/Laws/Table.lean ====
section
/-! SUPPORT. Tables: what a record reads after a change, and what a sum over the records becomes. -/

namespace Sys2Proof

variable {α β : Type} {n : Nat}

theorem length_allFin : ∀ n : Nat, (allFin n).length = n
  | 0 => rfl
  | n + 1 => by simp [allFin, length_allFin n]

theorem mem_allFin : ∀ {n : Nat} (i : Fin n), i ∈ allFin n
  | n + 1, i => by
    refine Fin.cases ?_ (fun j => ?_) i
    · simp [allFin]
    · simp [allFin, mem_allFin j]

theorem nodup_allFin : ∀ n : Nat, (allFin n).Nodup
  | 0 => List.nodup_nil
  | n + 1 => by
    refine List.nodup_cons.mpr ⟨?_, (nodup_allFin n).map (Fin.succ_injective n)⟩
    simp [Fin.succ_ne_zero]

theorem getElem_allFin : ∀ {n : Nat} (i : Nat) (h : i < (allFin n).length),
    (allFin n)[i] = ⟨i, by rw [length_allFin] at h; exact h⟩
  | 0, i, h => absurd h (by simp [allFin])
  | n + 1, 0, h => by simp [allFin]
  | n + 1, i + 1, h => by
    have h' : i < (allFin n).length := by simpa [allFin] using h
    simp [allFin, getElem_allFin i h']

@[ext] theorem Table.ext_toList {t u : Table α n} (h : t.toList = u.toList) : t = u := by
  cases t
  cases u
  cases h
  rfl

/-- Two tables that agree at every record are equal. -/
theorem Table.ext_get {t u : Table α n} (h : ∀ i, t.get i = u.get i) : t = u := by
  apply Table.ext_toList
  apply List.ext_getElem
  · rw [t.size_eq, u.size_eq]
  · intro i h₁ _
    exact h ⟨i, by rw [← t.size_eq]; exact h₁⟩

@[simp] theorem Table.get_set_self (t : Table α n) (i : Fin n) (a : α) : (t.set i a).get i = a := by
  simp [Table.get, Table.set]

theorem Table.get_set_ne (t : Table α n) {i j : Fin n} (a : α) (h : j ≠ i) :
    (t.set i a).get j = t.get j := by
  have : i.val ≠ j.val := fun e => h (Fin.ext e.symm)
  simp [Table.get, Table.set, this]

theorem Table.get_set (t : Table α n) (i j : Fin n) (a : α) :
    (t.set i a).get j = if j = i then a else t.get j := by
  split
  · next h => subst h; simp
  · next h => exact t.get_set_ne a h

@[simp] theorem Table.get_map (t : Table α n) (f : α → β) (i : Fin n) :
    (t.map f).get i = f (t.get i) := by
  simp [Table.get, Table.map]

@[simp] theorem Table.get_all (a : α) (i : Fin n) : (Table.all n a).get i = a := by
  simp [Table.get, Table.all]

@[simp] theorem Table.get_ofFn (f : Fin n → α) (i : Fin n) : (Table.ofFn f).get i = f i := by
  simp [Table.get, Table.ofFn, getElem_allFin]

@[simp] theorem Table.set_get_self (t : Table α n) (i : Fin n) : t.set i (t.get i) = t :=
  Table.ext_get fun j => by
    rw [Table.get_set]
    split
    · next h => rw [h]
    · rfl

@[simp] theorem Table.set_set (t : Table α n) (i : Fin n) (a b : α) :
    (t.set i a).set i b = t.set i b := by
  apply Table.ext_toList
  simp [Table.set]

theorem Table.set_comm (t : Table α n) {i j : Fin n} (a b : α) (h : i ≠ j) :
    (t.set i a).set j b = (t.set j b).set i a := by
  apply Table.ext_toList
  have : i.val ≠ j.val := fun e => h (Fin.ext e)
  simp only [Table.set]
  rw [List.set_comm _ _ this]

/-- The sum over the records splits at record `i`. -/
theorem Table.sum_set (t : Table α n) (i : Fin n) (a : α) (f : α → Nat) :
    (t.set i a).sum f + f (t.get i) = t.sum f + f a := by
  have key : ∀ (l : List α) (k : Nat) (h : k < l.length),
      ((l.set k a).map f).sum + f l[k] = (l.map f).sum + f a := by
    intro l
    induction l with
    | nil => intro k h; simp at h
    | cons x xs ih =>
      intro k h
      cases k with
      | zero => simp; omega
      | succ k =>
        have := ih k (by simpa using h)
        simp at this ⊢
        omega
  exact key t.toList i.val (by rw [t.size_eq]; exact i.isLt)

/-- One record counts at most the whole sum. -/
theorem Table.le_sum (t : Table α n) (i : Fin n) (f : α → Nat) : f (t.get i) ≤ t.sum f := by
  have key : ∀ (l : List α) (k : Nat) (h : k < l.length), f l[k] ≤ (l.map f).sum := by
    intro l
    induction l with
    | nil => intro k h; simp at h
    | cons x xs ih =>
      intro k h
      cases k with
      | zero => simp
      | succ k =>
        have := ih k (by simpa using h)
        simp
        omega
  exact key t.toList i.val (by rw [t.size_eq]; exact i.isLt)

/-- A sum in which no record's share changes is the same sum. -/
theorem Table.sum_congr {t u : Table α n} {f g : α → Nat}
    (h : ∀ i, f (t.get i) = g (u.get i)) : t.sum f = u.sum g := by
  have : t.toList.map f = u.toList.map g := by
    apply List.ext_getElem
    · simp [t.size_eq, u.size_eq]
    · intro i h₁ _
      simpa [Table.get] using h ⟨i, by simpa [t.size_eq] using h₁⟩
  simp [Table.sum, this]

theorem Table.any_eq_true (t : Table α n) (p : α → Bool) :
    t.any p = true ↔ ∃ i, p (t.get i) = true := by
  simp only [Table.any, List.any_eq_true]
  constructor
  · rintro ⟨x, hx, hp⟩
    obtain ⟨i, hi, rfl⟩ := List.getElem_of_mem hx
    exact ⟨⟨i, by rw [← t.size_eq]; exact hi⟩, hp⟩
  · rintro ⟨i, hp⟩
    exact ⟨_, List.getElem_mem _, hp⟩

end Sys2Proof
end

