-- ==== Sys2Proof/Laws/State.lean ====
section
/-! SUPPORT. What every field of State reads after each named update, so that no proof unfolds a record update. -/

namespace Sys2Proof.Machine

variable (s : State)

/-! ### setAgent -/

@[simp] theorem setAgent_agents (a : Agent) (c : AgentCtx) : (s.setAgent a c).agents = s.agents.set a c := rfl

@[simp] theorem setAgent_locks (a : Agent) (c : AgentCtx) : (s.setAgent a c).locks = s.locks := rfl

@[simp] theorem setAgent_queues (a : Agent) (c : AgentCtx) : (s.setAgent a c).queues = s.queues := rfl

@[simp] theorem setAgent_freeCount (a : Agent) (c : AgentCtx) : (s.setAgent a c).freeCount = s.freeCount := rfl

@[simp] theorem setAgent_senderWait (a : Agent) (c : AgentCtx) : (s.setAgent a c).senderWait = s.senderWait := rfl

@[simp] theorem setAgent_time (a : Agent) (c : AgentCtx) : (s.setAgent a c).time = s.time := rfl

@[simp] theorem setAgent_engine (a : Agent) (c : AgentCtx) : (s.setAgent a c).engine = s.engine := rfl

@[simp] theorem setAgent_sup (a : Agent) (c : AgentCtx) : (s.setAgent a c).sup = s.sup := rfl

@[simp] theorem setAgent_pins (a : Agent) (c : AgentCtx) : (s.setAgent a c).pins = s.pins := rfl

@[simp] theorem setAgent_bus (a : Agent) (c : AgentCtx) : (s.setAgent a c).bus = s.bus := rfl

@[simp] theorem setAgent_pending (a : Agent) (c : AgentCtx) : (s.setAgent a c).pending = s.pending := rfl

@[simp] theorem setAgent_operands_sup (a : Agent) (c : AgentCtx) (i : Fin 5) :
    (s.setAgent a c).supOperand i = s.supOperand i := rfl

@[simp] theorem setAgent_agent_self (a : Agent) (c : AgentCtx) : (s.setAgent a c).agent a = c := by
  simp [State.setAgent, State.agent]

theorem setAgent_agent (a : Agent) (c : AgentCtx) (x : Agent) :
    (s.setAgent a c).agent x = if x = a then c else s.agent x := by
  simp [State.setAgent, State.agent, Table.get_set]

theorem setAgent_agent_ne (a : Agent) (c : AgentCtx) {x : Agent} (h : x ≠ a) :
    (s.setAgent a c).agent x = s.agent x := by
  rw [setAgent_agent, if_neg h]

@[simp] theorem setAgent_lock (a : Agent) (c : AgentCtx) (x : LockId) : (s.setAgent a c).lock x = s.lock x := rfl

@[simp] theorem setAgent_queue (a : Agent) (c : AgentCtx) (x : QueueId) : (s.setAgent a c).queue x = s.queue x := rfl

/-! ### setLock -/

@[simp] theorem setLock_agents (l : LockId) (k : Lock) : (s.setLock l k).agents = s.agents := rfl

@[simp] theorem setLock_locks (l : LockId) (k : Lock) : (s.setLock l k).locks = s.locks.set l k := rfl

@[simp] theorem setLock_queues (l : LockId) (k : Lock) : (s.setLock l k).queues = s.queues := rfl

@[simp] theorem setLock_freeCount (l : LockId) (k : Lock) : (s.setLock l k).freeCount = s.freeCount := rfl

@[simp] theorem setLock_senderWait (l : LockId) (k : Lock) : (s.setLock l k).senderWait = s.senderWait := rfl

@[simp] theorem setLock_time (l : LockId) (k : Lock) : (s.setLock l k).time = s.time := rfl

@[simp] theorem setLock_engine (l : LockId) (k : Lock) : (s.setLock l k).engine = s.engine := rfl

@[simp] theorem setLock_sup (l : LockId) (k : Lock) : (s.setLock l k).sup = s.sup := rfl

@[simp] theorem setLock_pins (l : LockId) (k : Lock) : (s.setLock l k).pins = s.pins := rfl

@[simp] theorem setLock_bus (l : LockId) (k : Lock) : (s.setLock l k).bus = s.bus := rfl

@[simp] theorem setLock_pending (l : LockId) (k : Lock) : (s.setLock l k).pending = s.pending := rfl

@[simp] theorem setLock_operands_sup (l : LockId) (k : Lock) (i : Fin 5) :
    (s.setLock l k).supOperand i = s.supOperand i := rfl

@[simp] theorem setLock_agent (l : LockId) (k : Lock) (x : Agent) : (s.setLock l k).agent x = s.agent x := rfl

@[simp] theorem setLock_lock_self (l : LockId) (k : Lock) : (s.setLock l k).lock l = k := by
  simp [State.setLock, State.lock]

theorem setLock_lock (l : LockId) (k : Lock) (x : LockId) :
    (s.setLock l k).lock x = if x = l then k else s.lock x := by
  simp [State.setLock, State.lock, Table.get_set]

theorem setLock_lock_ne (l : LockId) (k : Lock) {x : LockId} (h : x ≠ l) :
    (s.setLock l k).lock x = s.lock x := by
  rw [setLock_lock, if_neg h]

@[simp] theorem setLock_queue (l : LockId) (k : Lock) (x : QueueId) : (s.setLock l k).queue x = s.queue x := rfl

/-! ### setQueue -/

@[simp] theorem setQueue_agents (q : QueueId) (k : Queue) : (s.setQueue q k).agents = s.agents := rfl

@[simp] theorem setQueue_locks (q : QueueId) (k : Queue) : (s.setQueue q k).locks = s.locks := rfl

@[simp] theorem setQueue_queues (q : QueueId) (k : Queue) : (s.setQueue q k).queues = s.queues.set q k := rfl

@[simp] theorem setQueue_freeCount (q : QueueId) (k : Queue) : (s.setQueue q k).freeCount = s.freeCount := rfl

@[simp] theorem setQueue_senderWait (q : QueueId) (k : Queue) : (s.setQueue q k).senderWait = s.senderWait := rfl

@[simp] theorem setQueue_time (q : QueueId) (k : Queue) : (s.setQueue q k).time = s.time := rfl

@[simp] theorem setQueue_engine (q : QueueId) (k : Queue) : (s.setQueue q k).engine = s.engine := rfl

@[simp] theorem setQueue_sup (q : QueueId) (k : Queue) : (s.setQueue q k).sup = s.sup := rfl

@[simp] theorem setQueue_pins (q : QueueId) (k : Queue) : (s.setQueue q k).pins = s.pins := rfl

@[simp] theorem setQueue_bus (q : QueueId) (k : Queue) : (s.setQueue q k).bus = s.bus := rfl

@[simp] theorem setQueue_pending (q : QueueId) (k : Queue) : (s.setQueue q k).pending = s.pending := rfl

@[simp] theorem setQueue_operands_sup (q : QueueId) (k : Queue) (i : Fin 5) :
    (s.setQueue q k).supOperand i = s.supOperand i := rfl

@[simp] theorem setQueue_agent (q : QueueId) (k : Queue) (x : Agent) : (s.setQueue q k).agent x = s.agent x := rfl

@[simp] theorem setQueue_lock (q : QueueId) (k : Queue) (x : LockId) : (s.setQueue q k).lock x = s.lock x := rfl

@[simp] theorem setQueue_queue_self (q : QueueId) (k : Queue) : (s.setQueue q k).queue q = k := by
  simp [State.setQueue, State.queue]

theorem setQueue_queue (q : QueueId) (k : Queue) (x : QueueId) :
    (s.setQueue q k).queue x = if x = q then k else s.queue x := by
  simp [State.setQueue, State.queue, Table.get_set]

theorem setQueue_queue_ne (q : QueueId) (k : Queue) {x : QueueId} (h : x ≠ q) :
    (s.setQueue q k).queue x = s.queue x := by
  rw [setQueue_queue, if_neg h]

/-! ### Updates in sequence -/

@[simp] theorem setAgent_setAgent (a : Agent) (c d : AgentCtx) :
    (s.setAgent a c).setAgent a d = s.setAgent a d := by
  simp [State.setAgent]

@[simp] theorem setAgent_get_self (a : Agent) : s.setAgent a (s.agent a) = s := by
  simp [State.setAgent, State.agent]

@[simp] theorem setLock_get_self (l : LockId) : s.setLock l (s.lock l) = s := by
  simp [State.setLock, State.lock]

@[simp] theorem setQueue_get_self (q : QueueId) : s.setQueue q (s.queue q) = s := by
  simp [State.setQueue, State.queue]

theorem setAgent_comm {a b : Agent} (c d : AgentCtx) (h : a ≠ b) :
    (s.setAgent a c).setAgent b d = (s.setAgent b d).setAgent a c := by
  simp [State.setAgent, Table.set_comm _ _ _ h]

/-- Two states with the same fields are the same state. -/
theorem State.ext_fields {s t : State} (agents : s.agents = t.agents) (locks : s.locks = t.locks)
    (queues : s.queues = t.queues) (freeCount : s.freeCount = t.freeCount)
    (senderWait : s.senderWait = t.senderWait) (time : s.time = t.time)
    (engine : s.engine = t.engine) (sup : s.sup = t.sup) (pins : s.pins = t.pins)
    (bus : s.bus = t.bus) (pending : s.pending = t.pending) : s = t := by
  cases s
  cases t
  simp_all

/-! ### The answer of a bus cycle, and the supervisor's result -/

@[simp] theorem answerWrite_agents : (s.answerWrite).agents = s.agents := rfl

@[simp] theorem answerWrite_locks : (s.answerWrite).locks = s.locks := rfl

@[simp] theorem answerWrite_queues : (s.answerWrite).queues = s.queues := rfl

@[simp] theorem answerWrite_freeCount : (s.answerWrite).freeCount = s.freeCount := rfl

@[simp] theorem answerWrite_senderWait : (s.answerWrite).senderWait = s.senderWait := rfl

@[simp] theorem answerWrite_time : (s.answerWrite).time = s.time := rfl

@[simp] theorem answerWrite_engine : (s.answerWrite).engine = s.engine := rfl

@[simp] theorem answerWrite_sup : (s.answerWrite).sup = s.sup := rfl

@[simp] theorem answerWrite_pins : (s.answerWrite).pins = s.pins := rfl

@[simp] theorem answerWrite_bus : (s.answerWrite).bus =
    { levels := .waiting :: (if s.abandonsCycle then [] else [.answer none]) ++ [.released],
      abandoned := s.bus.abandoned.tail } := rfl

@[simp] theorem answerWrite_pending : (s.answerWrite).pending = s.pending := rfl

@[simp] theorem answerWrite_agent (x : Agent) : (s.answerWrite).agent x = s.agent x := rfl

@[simp] theorem answerWrite_lock (x : LockId) : (s.answerWrite).lock x = s.lock x := rfl

@[simp] theorem answerWrite_queue (x : QueueId) : (s.answerWrite).queue x = s.queue x := rfl

@[simp] theorem unanswered_agents : (s.unanswered).agents = s.agents := rfl

@[simp] theorem unanswered_locks : (s.unanswered).locks = s.locks := rfl

@[simp] theorem unanswered_queues : (s.unanswered).queues = s.queues := rfl

@[simp] theorem unanswered_freeCount : (s.unanswered).freeCount = s.freeCount := rfl

@[simp] theorem unanswered_senderWait : (s.unanswered).senderWait = s.senderWait := rfl

@[simp] theorem unanswered_time : (s.unanswered).time = s.time := rfl

@[simp] theorem unanswered_engine : (s.unanswered).engine = s.engine := rfl

@[simp] theorem unanswered_sup : (s.unanswered).sup = s.sup := rfl

@[simp] theorem unanswered_pins : (s.unanswered).pins = s.pins := rfl

@[simp] theorem unanswered_bus : (s.unanswered).bus =
    { levels := [.waiting, .released], abandoned := s.bus.abandoned.tail } := rfl

@[simp] theorem unanswered_pending : (s.unanswered).pending = s.pending := rfl

@[simp] theorem unanswered_agent (x : Agent) : (s.unanswered).agent x = s.agent x := rfl

@[simp] theorem unanswered_lock (x : LockId) : (s.unanswered).lock x = s.lock x := rfl

@[simp] theorem unanswered_queue (x : QueueId) : (s.unanswered).queue x = s.queue x := rfl

@[simp] theorem answerRead_agents (v : Word) : (s.answerRead v).agents = s.agents := rfl

@[simp] theorem answerRead_locks (v : Word) : (s.answerRead v).locks = s.locks := rfl

@[simp] theorem answerRead_queues (v : Word) : (s.answerRead v).queues = s.queues := rfl

@[simp] theorem answerRead_freeCount (v : Word) : (s.answerRead v).freeCount = s.freeCount := rfl

@[simp] theorem answerRead_senderWait (v : Word) : (s.answerRead v).senderWait = s.senderWait := rfl

@[simp] theorem answerRead_time (v : Word) : (s.answerRead v).time = s.time := rfl

@[simp] theorem answerRead_engine (v : Word) : (s.answerRead v).engine = s.engine := rfl

@[simp] theorem answerRead_sup (v : Word) : (s.answerRead v).sup = s.sup := rfl

@[simp] theorem answerRead_pins (v : Word) : (s.answerRead v).pins = s.pins := rfl

@[simp] theorem answerRead_bus (v : Word) : (s.answerRead v).bus =
    { levels := .waiting :: (if s.abandonsCycle then [] else [.answer (some v)]) ++ [.released],
      abandoned := s.bus.abandoned.tail } := rfl

@[simp] theorem answerRead_pending (v : Word) : (s.answerRead v).pending = s.pending := rfl

@[simp] theorem answerRead_agent (v : Word) (x : Agent) : (s.answerRead v).agent x = s.agent x := rfl

@[simp] theorem answerRead_lock (v : Word) (x : LockId) : (s.answerRead v).lock x = s.lock x := rfl

@[simp] theorem answerRead_queue (v : Word) (x : QueueId) : (s.answerRead v).queue x = s.queue x := rfl

@[simp] theorem supResult_agents (c : ResCode) : (s.supResult c).agents = s.agents := rfl

@[simp] theorem supResult_locks (c : ResCode) : (s.supResult c).locks = s.locks := rfl

@[simp] theorem supResult_queues (c : ResCode) : (s.supResult c).queues = s.queues := rfl

@[simp] theorem supResult_freeCount (c : ResCode) : (s.supResult c).freeCount = s.freeCount := rfl

@[simp] theorem supResult_senderWait (c : ResCode) : (s.supResult c).senderWait = s.senderWait := rfl

@[simp] theorem supResult_time (c : ResCode) : (s.supResult c).time = s.time := rfl

@[simp] theorem supResult_engine (c : ResCode) : (s.supResult c).engine = s.engine := rfl

@[simp] theorem supResult_pins (c : ResCode) : (s.supResult c).pins = s.pins := rfl

@[simp] theorem supResult_bus (c : ResCode) : (s.supResult c).bus = s.bus := rfl

@[simp] theorem supResult_pending (c : ResCode) : (s.supResult c).pending = s.pending := rfl

@[simp] theorem supResult_agent (c : ResCode) (x : Agent) : (s.supResult c).agent x = s.agent x := rfl

@[simp] theorem supResult_lock (c : ResCode) (x : LockId) : (s.supResult c).lock x = s.lock x := rfl

@[simp] theorem supResult_queue (c : ResCode) (x : QueueId) : (s.supResult c).queue x = s.queue x := rfl

@[simp] theorem supResult_sup_tag (c : ResCode) : (s.supResult c).sup.tag = s.sup.tag := rfl

end Sys2Proof.Machine
end

