-- ==== Sys2Proof/Laws/Ops.lean ====
section
/-! SUPPORT. One lemma for each shared operation of Ops.lean and Operands.lean that says what it does, for proofs to cite in place of its text. -/

namespace Sys2Proof.Machine

variable (s : State)

/-! ### Results and waits are updates of one context -/

theorem setResult_eq (a : Agent) (r : Result) :
    s.setResult a r = s.setAgent a { s.agent a with res := r } := rfl

theorem refuse_eq (t : Agent) (c : ResCode) :
    s.refuse t c = s.setAgent t { s.agent t with res := .plain c } := rfl

theorem done_eq (t : Agent) (v : Word) :
    s.done t v = s.setAgent t { s.agent t with res := .doneWith v } := rfl

theorem setNotice_eq (a : Agent) (n : Notice) :
    s.setNotice a n = s.setAgent a { s.agent a with notices := (s.agent a).notices ||| n.bit } := rfl

theorem endWait_eq (a : Agent) (r : Result) :
    s.endWait a r = s.setAgent a { s.agent a with
      port := .attached, res := r, notices := (s.agent a).notices ||| Notice.waitDone.bit } := rfl

theorem startWait_eq (t : Agent) (w : Want) (timeout : Word) :
    s.startWait t w timeout = s.setAgent t { s.agent t with
      port := .waiting { want := w, deadline := deadlineOf timeout }, res := .plain .pending } := rfl

/-! ### The violation capture -/

theorem recordViolation_empty (t : Agent) (e : ViolationEvent) (h : s.sup.capture = none) :
    s.recordViolation t e =
      State.setNotice
        { s with sup := { s.sup with capture := some { tag := t, event := e, more := false } } }
        s.sup.tag .violation := by
  simp only [State.recordViolation, h]

theorem recordViolation_full (t : Agent) (e : ViolationEvent) {c : Capture}
    (h : s.sup.capture = some c) :
    s.recordViolation t e =
      { s with sup := { s.sup with capture := some { c with more := true } } } := by
  simp only [State.recordViolation, h]

/-- A violation leaves everything but the capture and the supervisor's notice set. -/
theorem recordViolation_frame (t : Agent) (e : ViolationEvent) :
    (s.recordViolation t e).locks = s.locks ∧ (s.recordViolation t e).queues = s.queues ∧
    (s.recordViolation t e).freeCount = s.freeCount ∧
    (s.recordViolation t e).senderWait = s.senderWait ∧ (s.recordViolation t e).time = s.time ∧
    (s.recordViolation t e).engine = s.engine ∧ (s.recordViolation t e).pins = s.pins ∧
    (s.recordViolation t e).bus = s.bus ∧ (s.recordViolation t e).pending = s.pending ∧
    (s.recordViolation t e).sup.tag = s.sup.tag := by
  unfold State.recordViolation
  split <;> exact ⟨rfl, rfl, rfl, rfl, rfl, rfl, rfl, rfl, rfl, rfl⟩

/-! ### Leaving a wait list -/

/-- Leaving a wait list touches the wait lists alone. -/
theorem leaveWaitList_frame (a : Agent) :
    (s.leaveWaitList a).agents = s.agents ∧ (s.leaveWaitList a).freeCount = s.freeCount ∧
    (s.leaveWaitList a).time = s.time ∧ (s.leaveWaitList a).engine = s.engine ∧
    (s.leaveWaitList a).sup = s.sup ∧ (s.leaveWaitList a).pins = s.pins ∧
    (s.leaveWaitList a).bus = s.bus ∧ (s.leaveWaitList a).pending = s.pending := by
  unfold State.leaveWaitList
  split
  · split <;> exact ⟨rfl, rfl, rfl, rfl, rfl, rfl, rfl, rfl⟩
  · exact ⟨rfl, rfl, rfl, rfl, rfl, rfl, rfl, rfl⟩

/-! ### STORE_EMPTY -/

theorem reckonStoreEmpty_of_not_fallen {before after : State}
    (h : ¬ (0 < before.unreserved ∧ after.unreserved = 0)) :
    reckonStoreEmpty before after = after := if_neg h

theorem reckonStoreEmpty_of_fallen {before after : State}
    (h : 0 < before.unreserved ∧ after.unreserved = 0) :
    reckonStoreEmpty before after = after.setNotice after.sup.tag .storeEmpty := if_pos h

/-- The unreserved free count reads the free count and the queues, nothing else. -/
theorem unreserved_congr {s t : State} (free : s.freeCount = t.freeCount)
    (queues : s.queues = t.queues) : s.unreserved = t.unreserved := by
  simp [State.unreserved, free, queues]

/-- Reckoning changes at most the supervisor's notice set. -/
theorem reckonStoreEmpty_frame (before after : State) :
    (reckonStoreEmpty before after).locks = after.locks ∧
    (reckonStoreEmpty before after).queues = after.queues ∧
    (reckonStoreEmpty before after).freeCount = after.freeCount ∧
    (reckonStoreEmpty before after).senderWait = after.senderWait ∧
    (reckonStoreEmpty before after).time = after.time ∧
    (reckonStoreEmpty before after).engine = after.engine ∧
    (reckonStoreEmpty before after).sup = after.sup ∧
    (reckonStoreEmpty before after).pins = after.pins ∧
    (reckonStoreEmpty before after).bus = after.bus ∧
    (reckonStoreEmpty before after).pending = after.pending := by
  unfold reckonStoreEmpty
  split <;> exact ⟨rfl, rfl, rfl, rfl, rfl, rfl, rfl, rfl, rfl, rfl⟩

/-! ### Bus cycles -/

theorem abandonsCycle_eq : s.abandonsCycle = true ↔ s.bus.abandoned.head? = some true := by
  unfold State.abandonsCycle
  cases s.bus.abandoned <;> simp

/-- A cycle whose master waits for RDY gets the answer. -/
theorem answerCycle_answered {data : Option Word} (h : s.bus.abandoned.head? ≠ some true) :
    s.answerCycle data = s.cycle [.answer data] := by
  simp [State.answerCycle, (abandonsCycle_eq s).not.mpr h]

/-- A cycle that its master abandons looks on the bus like one that is not answered. -/
theorem answerCycle_abandoned {data : Option Word} (h : s.bus.abandoned.head? = some true) :
    s.answerCycle data = s.unanswered := by
  simp [State.answerCycle, (abandonsCycle_eq s).mpr h, State.unanswered]

/-! ### Outcomes -/

theorem writeCycle_running (access : State → State) (h : s.pins.resetHeld = false) :
    writeCycle s access = .next (access s).answerWrite := by
  simp [writeCycle, h]

theorem writeCycle_held (access : State → State) (h : s.pins.resetHeld = true) :
    writeCycle s access = .next s.unanswered := by
  simp [writeCycle, h]

theorem readCycle_running (value : State → Word) (access : State → State)
    (h : s.pins.resetHeld = false) :
    readCycle s value access = .next ((access s).answerRead (value s)) := by
  simp [readCycle, h]

theorem readCycle_held (value : State → Word) (access : State → State)
    (h : s.pins.resetHeld = true) : readCycle s value access = .next s.unanswered := by
  simp [readCycle, h]

theorem blockEvent_running (event : State → State) (h : s.pins.resetHeld = false) :
    blockEvent s event = .next (event s) := by
  simp [blockEvent, h]

theorem blockEvent_held (event : State → State) (h : s.pins.resetHeld = true) :
    blockEvent s event = .next s := by
  simp [blockEvent, h]

/-! ### Operand forms -/

@[simp] theorem modeOf_nowait : modeOf 0 = some .nowait := rfl

@[simp] theorem modeOf_wait : modeOf 1 = some .wait := rfl

theorem modeOf_out_of_range {w : Word} (h : ¬ (w = 0 ∨ w = 1)) : modeOf w = none := by
  rw [modeOf, if_neg (fun e => h (Or.inl e)), if_neg (fun e => h (Or.inr e))]

theorem objectOf_of_eq {n : Nat} {w : Word} {x : Fin n} (h : w.toNat = x.val) :
    objectOf n w = some x := by
  simp [objectOf, h]

theorem objectOf_of_ge {n : Nat} {w : Word} (h : n ≤ w.toNat) : objectOf n w = none := by
  simp [objectOf, Nat.not_lt.mpr h]

theorem withLock_named {t : Agent} {l : LockId} (f : LockId → State)
    (h : (s.operand t 0).toNat = l.val) : withLock s t f = f l := by
  simp [withLock, objectOf_of_eq h]

theorem withQueue_named {t : Agent} {q : QueueId} (f : QueueId → State)
    (h : (s.operand t 0).toNat = q.val) : withQueue s t f = f q := by
  simp [withQueue, objectOf_of_eq h]

theorem withSupObject_named {n : Nat} {x : Fin n} (f : Fin n → State)
    (h : (s.supOperand 0).toNat = x.val) : withSupObject s n f = f x := by
  simp [withSupObject, objectOf_of_eq h]

theorem withSupObject_out_of_range {n : Nat} (f : Fin n → State)
    (h : n ≤ (s.supOperand 0).toNat) : withSupObject s n f = s.supResult .badObject := by
  simp [withSupObject, objectOf_of_ge h]

/-- An ATTACHED agent's known command goes to its owner. -/
theorem acceptCommand_attached {t : Agent} (c : AgentCmd) (owner : State → State)
    (h : (s.agent t).port = .attached) : acceptCommand s t (some c) owner = owner s := by
  simp [acceptCommand, portCheck, h]

end Sys2Proof.Machine
end

