-- ==== Sys2Proof/Laws/Exec.lean ====
section
/-! SUPPORT. What each command is: the bus cycle or the event of a block, with its effect named. -/

namespace Sys2Proof.Machine

variable (s : State)

theorem exec_attach (t : Agent) :
    exec (.attach t) s = writeCycle s fun x => attachCommand x t := rfl

theorem exec_detach (t : Agent) :
    exec (.detach t) s = writeCycle s fun x => detachCommand x t := rfl

theorem exec_cancel (t : Agent) :
    exec (.cancel t) s = writeCycle s fun x => cancelCommand x t := rfl

theorem exec_acquire (t : Agent) :
    exec (.acquire t) s = writeCycle s fun x => acquireCommand x t := rfl

theorem exec_release (t : Agent) :
    exec (.release t) s = writeCycle s fun x => releaseCommand x t := rfl

theorem exec_renew (t : Agent) :
    exec (.renew t) s = writeCycle s fun x => renewCommand x t := rfl

theorem exec_send (t : Agent) :
    exec (.send t) s = writeCycle s fun x => sendCommand x t := rfl

theorem exec_receive (t : Agent) :
    exec (.receive t) s = writeCycle s fun x => receiveCommand x t := rfl

theorem exec_bind (t : Agent) :
    exec (.bind t) s = writeCycle s fun x => bindCommand x t := rfl

theorem exec_unbind (t : Agent) :
    exec (.unbind t) s = writeCycle s fun x => unbindCommand x t := rfl

theorem exec_watch (t : Agent) :
    exec (.watch t) s = writeCycle s fun x => watchCommand x t := rfl

theorem exec_unwatch (t : Agent) :
    exec (.unwatch t) s = writeCycle s fun x => unwatchCommand x t := rfl

theorem exec_lockConfig :
    exec .lockConfig s = writeCycle s lockConfigCommand := rfl

theorem exec_queueOpen :
    exec .queueOpen s = writeCycle s queueOpenCommand := rfl

theorem exec_queueClose :
    exec .queueClose s = writeCycle s queueCloseCommand := rfl

theorem exec_queuePurge :
    exec .queuePurge s = writeCycle s queuePurgeCommand := rfl

theorem exec_retire :
    exec .retire s = writeCycle s retireCommand := rfl

theorem exec_quiesce :
    exec .quiesce s = writeCycle s fun x => setQuiesce x true := rfl

theorem exec_resume :
    exec .resume s = writeCycle s fun x => setQuiesce x false := rfl

theorem exec_ackViolation :
    exec .ackViolation s = writeCycle s ackViolation := rfl

theorem exec_clear :
    exec .clear s = writeCycle s clearPart := rfl

theorem exec_noteRead (t : Agent) :
    exec (.noteRead t) s = readCycle s (fun x => (x.agent t).notices) fun x => clearNotices x t := rfl

theorem exec_nenWrite (t : Agent) (v : Word) :
    exec (.nenWrite t v) s = writeCycle s fun x => writeEnable x t v := rfl

theorem exec_tickloRead (t : Agent) :
    exec (.tickloRead t) s = readCycle s (fun x => x.time.low) fun x => latchTick x t := rfl

theorem exec_tickhiRead (t : Agent) :
    exec (.tickhiRead t) s = readCycle s (fun x => tickHigh x t) fun x => unlatchTick x t := rfl

theorem exec_tickdivWrite (v : Word) :
    exec (.tickdivWrite v) s = writeCycle s fun x => writeTickdiv x v := rfl

theorem exec_supervisorPageWriteDenied (t : Agent) (off : Offset) (v : Word) :
    exec (.supervisorPageWriteDenied t off v) s = writeCycle s fun x => busWrite x t off v := rfl

theorem exec_registerWrite (t : Agent) (off : Offset) (v : Word) :
    exec (.registerWrite t off v) s = writeCycle s fun x => busWrite x t off v := rfl

theorem exec_reset :
    exec .reset s = .next (enterReset s) := rfl

theorem exec_resetRelease (straps : Agent) :
    exec (.resetRelease straps) s = .next (releaseReset s straps) := rfl

theorem exec_freezeAssert :
    exec .freezeAssert s = .next (setFreeze s true) := rfl

theorem exec_freezeRelease :
    exec .freezeRelease s = .next (setFreeze s false) := rfl

theorem exec_tick :
    exec .tick s = blockEvent s fun x => timeEvent x TimeBase.tick := rfl

theorem exec_leaseCountdown :
    exec .leaseCountdown s = blockEvent s lockTableTick := rfl

theorem exec_leaseExpiry (l : LockId) :
    exec (.leaseExpiry l) s = blockEvent s fun x => if x.leaseEnding l then lockTableTick x else x := rfl

theorem exec_deadlineCountdown :
    exec .deadlineCountdown s = blockEvent s agentPortsTick := rfl

theorem exec_deadlineExpiry (a : Agent) :
    exec (.deadlineExpiry a) s = blockEvent s fun x => if x.deadlineEnding a then agentPortsTick x else x := rfl

theorem exec_lockSweepStep :
    exec .lockSweepStep s = blockEvent s lockSweepStep := rfl

theorem exec_queueSweepStep :
    exec .queueSweepStep s = blockEvent s queueSweepStep := rfl

theorem exec_purgeStep :
    exec .purgeStep s = blockEvent s purgeStep := rfl

theorem exec_refclkPeriodCounted :
    exec .refclkPeriodCounted s = blockEvent s fun x => timeEvent x TimeBase.period := rfl

theorem exec_unknownAgentCommandCode (t : Agent) (code : Word) :
    exec (.unknownAgentCommandCode t code) s = writeCycle s fun x => writeCmd x t code := rfl

theorem exec_unknownSupervisorCommandCode (code : Word) :
    exec (.unknownSupervisorCommandCode code) s = writeCycle s fun x => writeScmd x code := rfl

theorem registerRead_eq (t : Agent) (off : Offset) :
    registerRead t off s = readCycle s (fun x => x.readReg t off) fun x => busRead x t off := rfl

/-- The rows NOTE_READ, TICKLO_READ and TICKHI_READ are the read cycles of their offsets. -/
theorem registerRead_note (t : Agent) : registerRead t 0x12 s = exec (.noteRead t) s := rfl

theorem registerRead_ticklo (t : Agent) : registerRead t 0x16 s = exec (.tickloRead t) s := rfl

theorem registerRead_tickhi (t : Agent) : registerRead t 0x18 s = exec (.tickhiRead t) s := rfl

/-- The even offsets whose reads have no side effect (R161). -/
theorem busRead_plain (t : Agent) {off : Offset} (even : off.getLsbD 0 = false)
    (plain : off ∉ [(0x12 : Offset), 0x16, 0x18]) : busRead s t off = s := by
  have kinds : ∀ o : Offset, o.getLsbD 0 = false → o ∉ [(0x12 : Offset), 0x16, 0x18] →
      Offset.supervisorPage o = true ∨ (AgentReg.ofOffset o ≠ .note ∧
        AgentReg.ofOffset o ≠ .ticklo ∧ AgentReg.ofOffset o ≠ .tickhi) := by decide +kernel
  unfold busRead
  rcases kinds off even plain with page | ⟨note, lo, hi⟩
  · simp [page]
  · split
    · rfl
    · unfold readAgentEffect
      split <;> first | contradiction | rfl

theorem step_idle (h : s.pending = []) : step s = .next s := by
  simp [step, h]

theorem step_front {c : Instr} {rest : List Instr} (h : s.pending = c :: rest) :
    step s = exec c { s with pending := rest } := by
  simp [step, h]

end Sys2Proof.Machine
end

