-- ==== Sys2Proof/Laws/Locks.lean ====
section
/-! SUPPORT. What passing a lock does, in each of its two cases, and what it leaves. -/

namespace Sys2Proof.Machine

variable (s : State) (l : LockId)

theorem passLock_nobody (lost : Bool) (h : (s.lock l).waiters = []) :
    passLock s l lost = s.setLock l { s.lock l with hold := none, broken := lost } := by
  simp only [passLock, h]

theorem passLock_head (lost : Bool) {w : Agent} {rest : List Agent}
    (h : (s.lock l).waiters = w :: rest) :
    passLock s l lost =
      (s.setLock l { (s.lock l).grantTo w with waiters := rest }).endWait w (.granted lost) := by
  simp only [passLock, h]

/-- Passing a lock touches that lock and the grantee's context. -/
theorem passLock_frame (lost : Bool) :
    (passLock s l lost).queues = s.queues ∧ (passLock s l lost).freeCount = s.freeCount ∧
    (passLock s l lost).senderWait = s.senderWait ∧ (passLock s l lost).time = s.time ∧
    (passLock s l lost).engine = s.engine ∧ (passLock s l lost).sup = s.sup ∧
    (passLock s l lost).pins = s.pins ∧ (passLock s l lost).bus = s.bus ∧
    (passLock s l lost).pending = s.pending := by
  unfold passLock
  split <;> exact ⟨rfl, rfl, rfl, rfl, rfl, rfl, rfl, rfl, rfl⟩

/-- Passing lock `l` leaves every other lock. -/
theorem passLock_lock_ne (lost : Bool) {x : LockId} (h : x ≠ l) :
    (passLock s l lost).lock x = s.lock x := by
  unfold passLock
  split <;> simp [State.endWait, setLock_lock, h]

/-- A tick at lock `l` leaves every other lock. -/
theorem tickLock_lock_ne {x : LockId} (h : x ≠ l) : (tickLock s l).lock x = s.lock x := by
  unfold tickLock
  split
  · rfl
  · split
    · rfl
    · split
      · simp [setLock_lock, h]
      · simp [expireLease, loseLock, State.setNotice, passLock_lock_ne s l true h]

/-- A tick at one lock touches locks and contexts alone. -/
theorem tickLock_frame :
    (tickLock s l).queues = s.queues ∧ (tickLock s l).freeCount = s.freeCount ∧
    (tickLock s l).senderWait = s.senderWait ∧ (tickLock s l).time = s.time ∧
    (tickLock s l).engine = s.engine ∧ (tickLock s l).sup = s.sup ∧
    (tickLock s l).pins = s.pins ∧ (tickLock s l).bus = s.bus ∧
    (tickLock s l).pending = s.pending := by
  unfold tickLock
  split
  · exact ⟨rfl, rfl, rfl, rfl, rfl, rfl, rfl, rfl, rfl⟩
  · split
    · exact ⟨rfl, rfl, rfl, rfl, rfl, rfl, rfl, rfl, rfl⟩
    · split
      · exact ⟨rfl, rfl, rfl, rfl, rfl, rfl, rfl, rfl, rfl⟩
      · exact passLock_frame s l true

end Sys2Proof.Machine
end

