-- ==== Sys2Proof/Laws/Messages.lean ====
section
/-! SUPPORT. What hand-off, admission and one entry of the admission pass do, and what they leave. -/

namespace Sys2Proof.Machine

variable (s : State) (q : QueueId)

theorem handOff_frame (m : Message) (r : Receiver) :
    (s.handOff q m r).locks = s.locks ∧ (s.handOff q m r).freeCount = s.freeCount ∧
    (s.handOff q m r).senderWait = s.senderWait ∧ (s.handOff q m r).time = s.time ∧
    (s.handOff q m r).engine = s.engine ∧ (s.handOff q m r).sup = s.sup ∧
    (s.handOff q m r).pins = s.pins ∧ (s.handOff q m r).bus = s.bus ∧
    (s.handOff q m r).pending = s.pending :=
  ⟨rfl, rfl, rfl, rfl, rfl, rfl, rfl, rfl, rfl⟩

theorem handOff_queues (m : Message) (r : Receiver) :
    (s.handOff q m r).queues = s.queues.set q { s.queue q with
      nextSeq := (s.queue q).nextSeq + 1
      receivers := (s.queue q).receivers.filter (·.agent != r.agent) } := rfl

theorem admit_frame (m : Message) :
    (s.admitMessage q m).locks = s.locks ∧ (s.admitMessage q m).freeCount = s.freeCount - 1 ∧
    (s.admitMessage q m).senderWait = s.senderWait ∧ (s.admitMessage q m).time = s.time ∧
    (s.admitMessage q m).engine = s.engine ∧ (s.admitMessage q m).sup = s.sup ∧
    (s.admitMessage q m).pins = s.pins ∧ (s.admitMessage q m).bus = s.bus ∧
    (s.admitMessage q m).pending = s.pending := by
  unfold State.admitMessage
  dsimp only
  split <;> exact ⟨rfl, rfl, rfl, rfl, rfl, rfl, rfl, rfl, rfl⟩

theorem admit_queues (m : Message) :
    (s.admitMessage q m).queues = s.queues.set q { s.queue q with
      nextSeq := (s.queue q).nextSeq + 1
      messages := placeMessage ((s.queue q).stamp m) (s.queue q).messages } := by
  unfold State.admitMessage
  dsimp only
  split <;> rfl

/-- An admission changes a context by notices alone. -/
theorem admit_agent (m : Message) (a : Agent) :
    (s.admitMessage q m).agent a =
      { s.agent a with
        notices :=
          if (s.queue q).messages.isEmpty then (s.agent a).notices ||| (s.agent a).watchKinds q
          else (s.agent a).notices } := by
  unfold State.admitMessage
  dsimp only
  split <;> simp [State.notifyWatchers, State.agent, State.setQueue]

/-- The WATCH kinds of a context are bits 2 to 5, one for each position that holds the queue. -/
theorem watchKinds_getLsbD (c : AgentCtx) {i : Nat} (hi : i < 16) :
    (c.watchKinds q).getLsbD i = true ↔ ∃ k : Fin 4, i = k.val + 2 ∧ c.watch.get k = some q := by
  have bits : ∀ b0 b1 b2 b3 : Bool, ∀ j : Fin 16,
      (((((0 : Word) ||| (if b0 then (Notice.watch 0).bit else 0)) |||
          (if b1 then (Notice.watch 1).bit else 0)) |||
          (if b2 then (Notice.watch 2).bit else 0)) |||
          (if b3 then (Notice.watch 3).bit else 0)).getLsbD j.val =
        (j.val == 2 && b0 || j.val == 3 && b1 || j.val == 4 && b2 || j.val == 5 && b3) := by
    decide +kernel
  have sum : c.watchKinds q =
      ((((0 : Word) ||| (if c.watch.get 0 = some q then (Notice.watch 0).bit else 0)) |||
          (if c.watch.get 1 = some q then (Notice.watch 1).bit else 0)) |||
          (if c.watch.get 2 = some q then (Notice.watch 2).bit else 0)) |||
          (if c.watch.get 3 = some q then (Notice.watch 3).bit else 0) := by
    change List.foldl _ 0 [0, 1, 2, 3] = _
    simp only [List.foldl]
    split <;> split <;> split <;> split <;> simp
  have h := bits (decide (c.watch.get 0 = some q)) (decide (c.watch.get 1 = some q))
    (decide (c.watch.get 2 = some q)) (decide (c.watch.get 3 = some q)) ⟨i, hi⟩
  simp only [decide_eq_true_eq] at h
  rw [sum, h]
  simp [Fin.exists_fin_succ, or_assoc]

/-- The placement in a list that is split by urgency. -/
theorem placeMessage_split (d : Stored) {urgents normals : List Stored}
    (hu : ∀ x ∈ urgents, x.msg.urgency = .urgent) (hn : ∀ x ∈ normals, x.msg.urgency = .normal) :
    placeMessage d (urgents ++ normals) =
      if d.msg.urgency = .urgent then urgents ++ d :: normals else urgents ++ normals ++ [d] := by
  have stop : normals.takeWhile (·.msg.urgency == .urgent) = [] ∧
      normals.dropWhile (·.msg.urgency == .urgent) = normals := by
    cases normals with
    | nil => exact ⟨rfl, rfl⟩
    | cons x _ => simp [hn x (by simp)]
  have all : ∀ x ∈ urgents, (x.msg.urgency == .urgent) = true := by simpa using hu
  unfold placeMessage
  cases d.msg.urgency <;>
    simp [List.takeWhile_append_of_pos all, List.dropWhile_append_of_pos all, stop]

/-- The placement keeps every message and adds the new one. -/
theorem placeMessage_perm (d : Stored) (msgs : List Stored) :
    (placeMessage d msgs).Perm (d :: msgs) := by
  unfold placeMessage
  split
  · exact List.perm_append_singleton d msgs
  · refine List.perm_middle.trans ?_
    rw [List.takeWhile_append_dropWhile]

theorem serveSender_not_waiting {a : Agent} (h : ∀ w, (s.agent a).port ≠ .waiting w) :
    serveSender s a = s := by
  unfold serveSender
  split
  · next w hw => exact absurd hw (h w)
  · rfl

theorem serveSender_frame (a : Agent) :
    (serveSender s a).locks = s.locks ∧ (serveSender s a).time = s.time ∧
    (serveSender s a).engine = s.engine ∧ (serveSender s a).sup = s.sup ∧
    (serveSender s a).pins = s.pins ∧ (serveSender s a).bus = s.bus ∧
    (serveSender s a).pending = s.pending := by
  unfold serveSender
  split
  · split
    · next q m _ =>
      split
      · exact ⟨rfl, rfl, rfl, rfl, rfl, rfl, rfl⟩
      · split
        · obtain ⟨h1, -, -, h2, h3, h4, h5, h6, h7⟩ := admit_frame s q m
          exact ⟨h1, h2, h3, h4, h5, h6, h7⟩
        · exact ⟨rfl, rfl, rfl, rfl, rfl, rfl, rfl⟩
    · exact ⟨rfl, rfl, rfl, rfl, rfl, rfl, rfl⟩
  · exact ⟨rfl, rfl, rfl, rfl, rfl, rfl, rfl⟩

/-- An admission pass leaves the locks, the time base, the engine and the Supervision Unit. -/
theorem admissionPass_frame :
    (admissionPass s).locks = s.locks ∧ (admissionPass s).time = s.time ∧
    (admissionPass s).engine = s.engine ∧ (admissionPass s).sup = s.sup ∧
    (admissionPass s).pins = s.pins ∧ (admissionPass s).bus = s.bus ∧
    (admissionPass s).pending = s.pending := by
  unfold admissionPass
  generalize s.senderWait = entries
  induction entries generalizing s with
  | nil => exact ⟨rfl, rfl, rfl, rfl, rfl, rfl, rfl⟩
  | cons a rest ih =>
    obtain ⟨h1, h2, h3, h4, h5, h6, h7⟩ := serveSender_frame s a
    obtain ⟨k1, k2, k3, k4, k5, k6, k7⟩ := ih (serveSender s a)
    exact ⟨k1.trans h1, k2.trans h2, k3.trans h3, k4.trans h4, k5.trans h5, k6.trans h6,
      k7.trans h7⟩

end Sys2Proof.Machine
end

