-- ==== Sys2Proof/Laws/Waiting.lean ====
section
/-! SUPPORT. The operations that take agents out of wait lists, in the form that the wait-list law gives them. -/

namespace Sys2Proof.Machine

theorem filter_ne_self {l : List Agent} {a : Agent} (h : a ∉ l) : l.filter (· != a) = l := by
  rw [List.filter_eq_self]; intro x hx; simp; rintro rfl; exact h hx

theorem filter_recv_self {l : List Receiver} {a : Agent} (h : ∀ r ∈ l, r.agent ≠ a) : l.filter (·.agent != a) = l := by
  rw [List.filter_eq_self]; intro x hx; simp; exact h x hx

/-- Where the wait lists are lawful, leaving the one list of the pending command is leaving all of them (R114). -/
theorem leaveWaitList_eq_withoutWaiter (s : State) (a : Agent) (w : WaitLaw s) : s.leaveWaitList a = s.withoutWaiter a := by
  obtain ⟨w1, w2, w3, w4, w5, w6, w7, w8⟩ := w
  have hl : ∀ l, (s.agent a).awaitedLock ≠ some l → a ∉ (s.lock l).waiters := fun l h => mt (w1 a l).1 h
  have hr : (∀ x, s.awaitedReceive a = some x → False) → ∀ q, ∀ r ∈ (s.queue q).receivers, r.agent ≠ a := by
    intro h q r hr e; have := w4 q r hr; rw [e] at this; exact h _ this
  have hs : (s.agent a).awaitedSend.isSome = false → a ∉ s.senderWait := by
    intro h hm; have := (w7 a).1 hm; simp [h] at this
  have mkl : ∀ l0, (∀ l, l ≠ l0 → a ∉ (s.lock l).waiters) → s.locks.map (fun k => { k with waiters := k.waiters.filter (· != a) }) = s.locks.set l0 { s.lock l0 with waiters := (s.lock l0).waiters.filter (· != a) } := by
    intro l0 h
    apply Table.ext_get; intro i; rw [Table.get_map, Table.get_set]
    split
    · next e => subst e; rfl
    · next e => change { s.lock i with waiters := (s.lock i).waiters.filter (· != a) } = s.lock i; rw [filter_ne_self (h i e)]
  have mkl' : (∀ l, a ∉ (s.lock l).waiters) → s.locks.map (fun k => { k with waiters := k.waiters.filter (· != a) }) = s.locks := by
    intro h
    apply Table.ext_get; intro i; rw [Table.get_map]; change { s.lock i with waiters := (s.lock i).waiters.filter (· != a) } = s.lock i; rw [filter_ne_self (h i)]
  have mkq' : (∀ q, ∀ r ∈ (s.queue q).receivers, r.agent ≠ a) → s.queues.map (fun k => { k with receivers := k.receivers.filter (·.agent != a) }) = s.queues := by
    intro h
    apply Table.ext_get; intro i; rw [Table.get_map]; change { s.queue i with receivers := (s.queue i).receivers.filter (·.agent != a) } = s.queue i; rw [filter_recv_self (h i)]
  cases hp : (s.agent a).port with
  | waiting w =>
    cases hw : w.want with
    | acquire l =>
      have e1 : s.leaveWaitList a = s.setLock l { s.lock l with waiters := (s.lock l).waiters.filter (· != a) } := by
        simp [State.leaveWaitList, hp, hw]
      rw [e1]
      have el : (s.agent a).awaitedLock = some l := by simp [AgentCtx.awaitedLock, hp, hw]
      apply State.ext_fields <;> try rfl
      · symm; exact mkl l (fun l' h' => hl l' (by rw [el]; simpa using Ne.symm h'))
      · symm; exact mkq' (hr (by intro x hx; simp [State.awaitedReceive, hp, hw] at hx))
      · symm; exact filter_ne_self (hs (by simp [AgentCtx.awaitedSend, hp, hw]))
    | send q m =>
      have e1 : s.leaveWaitList a = s.dropSender a := by
        simp [State.leaveWaitList, hp, hw]
      rw [e1]
      apply State.ext_fields <;> try rfl
      · symm; exact mkl' (fun l' => hl l' (by simp [AgentCtx.awaitedLock, hp, hw]))
      · symm; exact mkq' (hr (by intro x hx; simp [State.awaitedReceive, hp, hw] at hx))
    | receive q lab mask =>
      have e1 : s.leaveWaitList a = s.setQueue q { s.queue q with receivers := (s.queue q).receivers.filter (·.agent != a) } := by
        simp [State.leaveWaitList, hp, hw]
      rw [e1]
      apply State.ext_fields <;> try rfl
      · symm; exact mkl' (fun l' => hl l' (by simp [AgentCtx.awaitedLock, hp, hw]))
      · apply Table.ext_get; intro i
        change (s.queues.set q _).get i = (s.queues.map _).get i
        rw [Table.get_map, Table.get_set]
        split
        · next e => subst e; rfl
        · next e =>
          rw [filter_recv_self]
          intro r hr e2
          have := w4 i r hr
          rw [e2] at this
          simp [State.awaitedReceive, hp, hw] at this
          exact e this.1.symm
      · symm; exact filter_ne_self (hs (by simp [AgentCtx.awaitedSend, hp, hw]))
  | _ =>
    have e1 : s.leaveWaitList a = s := by simp [State.leaveWaitList, hp]
    rw [e1]
    apply State.ext_fields <;> try rfl
    · symm; exact mkl' (fun l' => hl l' (by simp [AgentCtx.awaitedLock, hp]))
    · symm; exact mkq' (hr (by intro x hx; simp [State.awaitedReceive, hp] at hx))
    · symm; exact filter_ne_self (hs (by simp [AgentCtx.awaitedSend, hp]))

theorem foldl_endWait (c : ResCode) : ∀ (l : List Agent) (s : State), l.Nodup → ∀ a,
   (l.foldl (fun s a => s.endWait a (.plain c)) s).agent a = (if a ∈ l then {s.agent a with port := .attached, res := .plain c, notices := (s.agent a).notices ||| Notice.waitDone.bit} else s.agent a) ∧
   (l.foldl (fun s a => s.endWait a (.plain c)) s) = {s with agents := (l.foldl (fun s a => s.endWait a (.plain c)) s).agents} := by
  intro l
  induction l with
  | nil => intro s _ a; simp
  | cons x xs ih =>
    intro s hn a
    obtain ⟨h1, h2⟩ := List.nodup_cons.1 hn
    obtain ⟨i1, i2⟩ := ih (s.endWait x (.plain c)) h2 a
    simp only [List.foldl_cons]
    constructor
    · rw [i1]
      simp only [endWait_eq]
      by_cases e : a = x
      · subst e; simp [h1]
      · simp [e, setAgent_agent]
    · exact i2

/-- Where the wait lists are lawful, ending the waiters of a queue ends every wait at it, and no other (R40). -/
theorem endWaiters_eq_waitersEnded (s : State) (q : QueueId) (c : ResCode) (w : WaitLaw s) : endWaiters s q c = s.waitersEnded q c := by
  obtain ⟨w1, w2, w3, w4, w5, w6, w7, w8⟩ := w
  have hb : ∀ a, (s.blockedMessage q a).isSome = true ↔ ∃ m, (s.agent a).awaitedSend = some (q, m) := by
    intro a
    simp only [State.blockedMessage, AgentCtx.awaitedSend]
    cases (s.agent a).port with
    | waiting x =>
      rcases x with ⟨want, d⟩
      cases want with
      | send q' m => by_cases e : q' = q <;> simp [e]
      | _ => simp
    | _ => simp
  have hrecv : ∀ a, a ∈ (s.queue q).receivers.map (·.agent) ↔ ∃ r, s.awaitedReceive a = some (q, r) := by
    intro a
    constructor
    · intro h
      obtain ⟨r, hr, rfl⟩ := List.mem_map.1 h
      exact ⟨r, w4 q r hr⟩
    · rintro ⟨r, hr⟩
      have := w5 a (q, r) hr
      have e : r.agent = a := by
        simp only [State.awaitedReceive] at hr
        split at hr
        · split at hr
          · cases hr; rfl
          · cases hr
        · cases hr
      exact List.mem_map.2 ⟨r, this, e⟩
  have hw : ∀ a, (s.agent a).waitsAtQueue q = true ↔ (∃ m, (s.agent a).awaitedSend = some (q, m)) ∨ ∃ r, s.awaitedReceive a = some (q, r) := by
    intro a
    simp only [AgentCtx.waitsAtQueue, AgentCtx.awaitedSend, State.awaitedReceive]
    cases (s.agent a).port with
    | waiting x => rcases x with ⟨want, d⟩; cases want <;> simp
    | _ => simp
  have hmem : ∀ a, a ∈ s.waitersOf q ↔ (s.agent a).waitsAtQueue q = true := by
    intro a
    rw [hw, State.waitersOf, List.mem_append, List.mem_filter, hrecv, hb, or_comm]
    constructor
    · rintro (⟨_, h⟩ | h)
      · exact Or.inl h
      · exact Or.inr h
    · rintro (⟨m, h⟩ | h)
      · exact Or.inl ⟨(w7 a).2 (by simp [h]), m, h⟩
      · exact Or.inr h
  have hnd : (s.waitersOf q).Nodup := by
    rw [State.waitersOf, List.nodup_append]
    refine ⟨w6 q, w8.filter _, ?_⟩
    intro a ha b hb' e
    subst e
    obtain ⟨r, hr⟩ := (hrecv a).1 ha
    obtain ⟨m, hm⟩ := (hb a).1 (List.mem_filter.1 hb').2
    simp only [AgentCtx.awaitedSend, State.awaitedReceive] at hr hm
    cases hx : (s.agent a).port with
    | waiting x => cases hy : x.want <;> simp [hx, hy] at hr hm
    | _ => simp [hx] at hr
  rw [endWaiters]
  set s1 : State := State.setQueue { s with senderWait := s.senderWait.filter fun a => (s.blockedMessage q a).isNone } q { s.queue q with receivers := [] } with hs1
  have key := foldl_endWait c (s.waitersOf q) s1 hnd
  rw [(key 0).2]
  apply State.ext_fields <;> try rfl
  · apply Table.ext_get; intro a
    change State.agent _ a = (s.agents.map _).get a
    rw [Table.get_map]
    have := (key a).1
    simp only [State.agent] at this ⊢
    rw [this]
    simp only [hmem]
    rfl
  · change s.senderWait.filter _ = s.senderWait.filter _
    apply List.filter_congr
    intro a ha
    have h1 := hb a
    have h2 := hw a
    have h3 : ∀ r, s.awaitedReceive a ≠ some (q, r) := by
      intro r hr
      have := (w7 a).1 ha
      simp only [AgentCtx.awaitedSend, State.awaitedReceive] at hr this
      cases hx : (s.agent a).port with
      | waiting x => cases hy : x.want <;> simp [hx, hy] at hr this
      | _ => simp [hx] at hr
    cases hz : s.blockedMessage q a with
    | none =>
      have : ¬ ∃ m, (s.agent a).awaitedSend = some (q, m) := by rw [← h1]; simp [hz]
      have : (s.agent a).waitsAtQueue q = false := by
        rw [Bool.eq_false_iff, ne_eq, h2]
        rintro (h | ⟨r, h⟩)
        · exact this h
        · exact h3 r h
      simp [this]
    | some m =>
      have : (s.agent a).waitsAtQueue q = true := by rw [h2]; left; rw [← h1]; simp [hz]
      simp [this]

end Sys2Proof.Machine
end

