-- ==== Sys2Proof/Tests/Slice0.lean ====
section
/-! SUPPORT. The model's own tests: the well-formedness checks, single steps on small states against the spec's tables and sequences, and for every statement with hypotheses a state and operands that meet them, clause by clause, at boundary values. -/

namespace Sys2Proof.Tests

open Sys2Proof.Machine

/-! ### Builders -/

/-- The state that a command leaves. -/
def after (c : Instr) (s : State) : State :=
  match exec c s with
  | .next t => t
  | _ => s

def words (a b c d e : Word) : Table Word 5 :=
  ⟨[a, b, c, d, e], rfl⟩

/-- `s` with agent `t` ATTACHED and its operands loaded. -/
def calling (s : State) (t : Agent) (ops : Table Word 5) : State :=
  s.setAgent t { s.agent t with port := .attached, operands := ops }

/-- `s` with the supervisor's operands loaded. -/
def commanding (s : State) (ops : Table Word 5) : State :=
  { s with sup := { s.sup with operands := ops } }

/-- `s` with agent `t` waiting. -/
def waitingFor (s : State) (t : Agent) (w : Want) (deadline : Option Nat) : State :=
  s.setAgent t { s.agent t with port := .waiting { want := w, deadline := deadline } }

def heldLock (holder : Agent) (depth : Nat) (lease : Option Nat) (length : Word)
    (waiters : List Agent) : Lock :=
  { Lock.initial with
    hold := some { holder := holder, depth := depth, lease := lease }
    leaseLength := length, waiters := waiters }

def openQueue (capacity reserve : Nat) (msgs : List Stored) (rs : List Receiver) : Queue :=
  { Queue.initial with
    state := .opened { capacity := capacity, reserve := reserve }, messages := msgs, receivers := rs }

def note (source : Agent) (urgency : Urgency) (label : Word) : Message :=
  { source := source, urgency := urgency, label := label, payload := [], reply := none }

def held : State :=
  { State.reset with pins := { resetHeld := true, frozen := false } }

/-- `s` with the next bus cycle abandoned by its master. -/
def abandoning (s : State) : State :=
  { s with bus := { s.bus with abandoned := [true] } }

def frozen : State :=
  { State.reset with pins := { resetHeld := false, frozen := true } }

/-- Lock 63 held by agent 2 on its last tick with agent 1 waiting on its last tick, lock 0 held by agent 3 on its last tick with nobody waiting, one tick to take, and FREEZE_ASSERT in the queue. -/
def lastTick : State :=
  { waitingFor
      (calling
        (calling
          ((State.reset.setLock 63 (heldLock 2 4 (some 1) 5 [1])).setLock 0
            (heldLock 3 1 (some 1) 5 []))
          2 (words 0 0 0 0 0))
        3 (words 0 0 0 0 0))
      1 (.acquire 63) (some 1) with
    time := { TimeBase.initial with count := 1, lockDue := 1, portDue := 1 }
    pending := [.freezeAssert] }

/-- Queue 31 with agents 5 and 4 waiting there, agent 5 with a narrow filter; agent 6 calls. -/
def twoReceivers : State :=
  calling
    (waitingFor
      (waitingFor
        (State.reset.setQueue 31 (openQueue 4 1 []
          [{ agent := 5, label := 0x0300, mask := 0xFF00 }, { agent := 4, label := 0, mask := 0 }]))
        5 (.receive 31 0x0300 0xFF00) none)
      4 (.receive 31 0 0) (some 9))
    6 (words 31 0 0 0 0)

/-- Queue 0 full with one message, agents 7 and 8 blocked there; agent 6 calls with a mask of 0. -/
def blockedSenders (mode : Word) : State :=
  { calling
      (waitingFor
        (waitingFor
          (State.reset.setQueue 0 (openQueue 1 0 [{ msg := note 9 .normal 1, seq := 4 }] []))
          7 (.send 0 (note 7 .normal 2)) none)
        8 (.send 0 (note 8 .urgent 3)) (some 2))
      6 (words 0 mode 0 3 0xFFFF) with
    senderWait := [7, 8], freeCount := 255 }

/-! ### Well-formedness: an ill-formed term for each check -/

theorem test_registerWrite_odd_offset :
    (Instr.registerWrite 0 0x03 0).wellFormed = false := by decide

theorem test_registerWrite_cmd : (Instr.registerWrite 0 0x00 0).wellFormed = false := by decide

theorem test_registerWrite_nen : (Instr.registerWrite 0 0x14 0).wellFormed = false := by decide

theorem test_registerWrite_scmd : (Instr.registerWrite 0 0x80 0).wellFormed = false := by decide

theorem test_registerWrite_tickdiv : (Instr.registerWrite 0 0x92 0).wellFormed = false := by decide

theorem test_pageWrite_odd_offset :
    (Instr.supervisorPageWriteDenied 1 0x81 0).wellFormed = false := by decide

theorem test_pageWrite_agent_page :
    (Instr.supervisorPageWriteDenied 1 0x7E 0).wellFormed = false := by decide

theorem test_unknown_code_is_unknown :
    (Instr.unknownAgentCommandCode 1 0x25).wellFormed = false ∧
    (Instr.unknownAgentCommandCode 1 0x26).wellFormed = true := by decide

theorem test_unknown_supervisor_code_is_unknown :
    (Instr.unknownSupervisorCommandCode 0x4F).wellFormed = false ∧
    (Instr.unknownSupervisorCommandCode 0x48).wellFormed = true := by decide

/-! ### Decoding -/

theorem test_no_word_spells_a_command : decodeTableWord 16 0x10 = none := by decide

theorem test_code_roundtrip :
    (∀ c ∈ [AgentCmd.attach, .detach, .cancel, .acquire, .release, .renew, .send, .receive, .bind,
      .unbind, .watch, .unwatch], AgentCmd.ofCode c.code = some c) ∧
    (∀ c ∈ [SupCmd.lockConfig, .queueOpen, .queueClose, .queuePurge, .retire, .quiesce, .resume,
      .ackViolation, .clear], SupCmd.ofCode c.code = some c) := by decide

theorem test_offsets_name_registers :
    AgentReg.ofOffset 0x2C = .stg 7 ∧ AgentReg.ofOffset 0x42 = .dlv 7 ∧
    AgentReg.ofOffset 0x44 = .unused ∧ SupReg.ofOffset 0x8A = .operand 4 ∧
    SupReg.ofOffset 0xBA = .suptag ∧ SupReg.ofOffset 0xBC = .unused := by decide

/-! ### Single steps -/

theorem test_attach_permitted :
    ((after (.attach 4) { State.reset with
      sup := { Supervision.initial with permit := 0x0010 } }).agent 4).port = .attached := by decide

theorem test_attach_denied_is_captured :
    (after (.attach 4) State.reset).sup.capture =
      some { tag := 4, event := .command .attach 0, more := false } ∧
    ((after (.attach 4) State.reset).agent 0).notices = 0x0100 := by decide

theorem test_detach_refused_while_holding :
    ((after (.detach 2) lastTick).agent 2).res = .plain .holding := by decide

theorem test_cancel_leaves_list :
    ((after (.cancel 1) lastTick).lock 63).waiters = [] ∧
    ((after (.cancel 1) lastTick).agent 1).res = .plain .cancelled := by decide

theorem test_acquire_free_with_mark :
    (after (.acquire 3) (calling
      (State.reset.setLock 63 { Lock.initial with broken := true, leaseLength := 7 }) 3
      (words 63 1 0 0 0))).lock 63 = heldLock 3 1 (some 7) 7 [] := by decide

theorem test_release_passes_lock :
    (after (.release 3) (calling (waitingFor
      (State.reset.setLock 5 (heldLock 3 1 none 0 [9])) 9 (.acquire 5) none) 3
      (words 5 0 0 0 0))).lock 5 = heldLock 9 1 none 0 [] := by decide

theorem test_renew_reports_depth :
    ((after (.renew 2) (calling lastTick 2 (words 63 0 0 0 0))).agent 2).res = .doneWith 4 := by
  decide

theorem test_send_urgent_overtakes :
    ((after (.send 1) ((calling (State.reset.setQueue 9 (openQueue 16 4
      [{ msg := note 3 .urgent 2, seq := 2 }, { msg := note 1 .normal 1, seq := 0 }] [])) 1
      (words 9 0 0 0 0)).setStaging 1 { Staging.cleared with urgency := .urgent })).queue 9).messages.map
      (·.msg.urgency) = [.urgent, .urgent, .normal] := by decide

theorem test_receive_runs_pass :
    ((after (.receive 6) ((blockedSenders 0).setAgent 6
      { (blockedSenders 0).agent 6 with operands := words 0 0 0 0 0 })).queue 0).messages =
      [{ msg := note 7 .normal 2, seq := 0 }] := by decide

theorem test_receive_from_sender :
    ((after (.receive 6) (blockedSenders 0)).agent 6).delivery.source = 8 ∧
    (after (.receive 6) (blockedSenders 0)).senderWait = [7] := by decide

theorem test_bind_unbound :
    ((after (.bind 2) (calling (State.reset.setQueue 3 (openQueue 1 0 [] [])) 2
      (words 3 0 0 0 0))).queue 3).bound = some 2 := by decide

theorem test_unbind_stranger_denied :
    ((after (.unbind 2) (calling State.reset 2 (words 3 0 0 0 0))).agent 2).res = .plain .denied := by
  decide

theorem test_watch_lowest_position :
    ((after (.watch 2) (calling State.reset 2 (words 12 0 0 0 0))).agent 2).watch.get 0 = some 12 := by
  decide

theorem test_unwatch_not_watched :
    ((after (.unwatch 2) (calling State.reset 2 (words 12 0 0 0 0))).agent 2).res =
      .plain .badOperand := by decide

theorem test_lockConfig_clears_mark :
    (after .lockConfig (commanding (State.reset.setLock 7 { Lock.initial with broken := true })
      (words 7 3 0x00FF 0 0))).lock 7 =
      { Lock.initial with leaseLength := 3, useMask := 0x00FF } := by decide

theorem test_queueOpen_takes_reserve :
    (after .queueOpen (commanding State.reset (words 0 256 256 0xFFFF 0xFFFF))).unreserved = 0 ∧
    ((after .queueOpen (commanding State.reset (words 0 256 256 0xFFFF 0xFFFF))).agent 0).notices =
      0x0400 := by decide

theorem test_queueClose_ends_receivers :
    ((after .queueClose (commanding twoReceivers (words 31 0 0 0 0))).agent 4).res = .plain .closed := by
  decide

theorem test_queuePurge_starts_job :
    (after .queuePurge (commanding (blockedSenders 0) (words 0 0 0 0 0))).engine =
      { jobs := [.purge 0], state := .purge 0 } := by decide

theorem test_retire_starts_sweep :
    (after .retire (commanding lastTick (words 2 0 0 0 0))).engine =
      { jobs := [.retire 2], state := .retireLocks 2 0 } := by decide

theorem test_quiesce_on : (after .quiesce State.reset).sup.quiesce = true := by decide

theorem test_resume_off : (after .resume State.reset).sup.sres = .done := by decide

theorem test_ackViolation_empties :
    (after .ackViolation (after (.attach 4) State.reset)).sup.capture = none := by decide

theorem test_clear_detaches :
    ((after .clear lastTick).agent 1).res = .plain .cleared ∧
    (after .clear lastTick).lock 0 = { Lock.initial with leaseLength := 5 } := by decide

theorem test_noteRead_returns_set :
    (after (.noteRead 0) (after (.attach 4) State.reset)).bus.levels =
      [.waiting, .answer (some 0x0100), .released] := by decide

/-- A read of NOTE that its master abandons clears the set, and RDY never rises; the cycle after it is answered. -/
theorem test_noteRead_abandoned :
    (after (.noteRead 0) (abandoning (after (.attach 4) State.reset))).bus =
      { levels := [.waiting, .released], abandoned := [] } ∧
    ((after (.noteRead 0) (abandoning (after (.attach 4) State.reset))).agent 0).notices = 0 := by
  decide

theorem test_nenWrite_keeps_kinds :
    ((after (.nenWrite 3 0xFFFF) State.reset).agent 3).enable = 0x073F := by decide

/-- Table 5-1: the count 131071 is read as 65535 with 1 latched. -/
theorem test_ticklo_of_carry :
    (after (.tickloRead 4) { State.reset with
      time := { TimeBase.initial with count := 131071 } }).bus.levels =
        [.waiting, .answer (some 65535), .released] ∧
    ((after (.tickloRead 4) { State.reset with
      time := { TimeBase.initial with count := 131071 } }).agent 4).latch =
      { valid := true, high := 1 } := by decide

theorem test_tickhi_without_latch :
    (after (.tickhiRead 9) { State.reset with
      time := { TimeBase.initial with count := 131072 } }).bus.levels =
        [.waiting, .answer (some 2), .released] := by decide

/-- A plain read of TICKDIV: 625 from the released part, and no answer from the held one. -/
theorem test_registerRead_tickdiv :
    registerRead 0 0x92 State.reset = .next (State.reset.answerRead 625) ∧
    registerRead 0 0x92 held = .next held.unanswered :=
  ⟨rfl, rfl⟩

theorem test_tickdivWrite_later :
    (after (.tickdivWrite 1) State.reset).time.length = 10000 ∧
    (after .tick (after (.tickdivWrite 1) State.reset)).time.length = 16 := by decide

theorem test_pageWrite_more_flag :
    (after (.supervisorPageWriteDenied 9 0x90 1) (after (.attach 4) State.reset)).sup.capture =
      some { tag := 4, event := .command .attach 0, more := true } := by decide

theorem test_registerWrite_header :
    ((after (.registerWrite 3 0x1A 0xF7FA) State.reset).agent 3).staging.header = 0x07FA := by decide

theorem test_reset_holds : (after .reset lastTick).pins.resetHeld = true := by decide

theorem test_resetRelease_latches : (after (.resetRelease 11) held).sup.tag = 11 := by decide

theorem test_freeze_stops_tick :
    (after .tick (after .freezeAssert State.reset)).time.count = 0 ∧
    (after .tick (after .freezeRelease frozen)).time.count = 1 := by decide

theorem test_leaseCountdown_loses_lock :
    (after .leaseCountdown lastTick).lock 63 = heldLock 1 1 (some 5) 5 [] ∧
    ((after .leaseCountdown lastTick).lock 0).broken = true := by decide +kernel

theorem test_leaseExpiry_notice :
    ((after (.leaseExpiry 63) lastTick).agent 2).notices = 0x0002 := by decide +kernel

theorem test_deadlineCountdown_times_out :
    ((after .deadlineCountdown lastTick).agent 1).res = .plain .timeout := by decide

theorem test_deadlineExpiry_leaves_list :
    ((after (.deadlineExpiry 1) lastTick).lock 63).waiters = [] := by decide

theorem test_lockSweepStep_gives_broken :
    ((after .lockSweepStep { lastTick with
      engine := { jobs := [.retire 2], state := .retireLocks 2 63 } }).agent 1).res =
      .granted true := by decide

theorem test_queueSweepStep_ends :
    (after .queueSweepStep { State.reset with
      engine := { jobs := [.retire 2], state := .retireQueues 2 31 } }).engine =
      { jobs := [], state := .idle } := by decide

theorem test_purgeStep_reopens :
    (after .purgeStep { State.reset.setQueue 2 { openQueue 3 1 [{ msg := note 1 .normal 0, seq := 0 }] []
      with state := .purging { capacity := 3, reserve := 1 } false } with
      freeCount := 255, engine := { jobs := [.purge 2], state := .purge 2 } }).queue 2 =
      openQueue 3 1 [] [] := by decide

theorem test_refclk_ends_interval :
    (after .refclkPeriodCounted { State.reset with
      time := { TimeBase.initial with counter := 15, length := 16 } }).time.count = 1 := by decide

theorem test_unknown_code_refused :
    ((after (.unknownAgentCommandCode 3 0x40) (calling State.reset 3 (words 0 0 0 0 0))).agent 3).res =
      .plain .badCommand := by decide

theorem test_unknown_supervisor_code_refused :
    (after (.unknownSupervisorCommandCode 0x10) State.reset).sup.sres = .badCommand := by decide

/-! ### Witnesses: the hypotheses of each statement can be met, clause by clause -/

theorem witness_StepRunsFrontCommand : State.reset.pending = [] := by decide

theorem witness_ResetHoldsEveryBlock :
    held.pins.resetHeld = true ∧ (Instr.send 15).isBusCycle = true ∧
    (Instr.purgeStep).isBlockEvent = true ∧
    registerRead 3 0x90 held = .next held.unanswered :=
  ⟨rfl, rfl, rfl, rfl⟩

theorem witness_PinsMoveTheirLevels :
    held.pins.resetHeld = true ∧ State.reset.pins.resetHeld = false := by decide

/-- The counter one below, and at, the last period of the interval. -/
theorem witness_TimeBaseCountsAndTicks :
    (Running frozen ∧ frozen.pins.frozen = true) ∧
    (Running State.reset ∧ State.reset.pins.frozen = false) ∧
    9998 + 1 < TimeBase.initial.length ∧ TimeBase.initial.length ≤ 9999 + 1 ∧
    exec .freezeAssert State.reset = .next (setFreeze State.reset true) ∧
    ({ TimeBase.initial with counter := 9999 } : TimeBase).counter < TimeBase.initial.length :=
  ⟨by decide, by decide, by decide, by decide, rfl, by decide⟩

theorem witness_TickLatchReads : Running State.reset ∧ State.reset.bus.abandoned = [] := by decide

theorem lastTick_locks : LocksLawful lastTick := by decide +kernel

theorem lastTick_waits : WaitLaw lastTick := by decide +kernel

theorem lastTick_deadlines : DeadlineLaw lastTick := by decide +kernel

/-- Lock 63 has a head waiter, lock 0 none, lock 1 is FREE. -/
theorem witness_LeaseTickAtEveryLock :
    (Running lastTick ∧ lastTick.pins.frozen = false ∧ 0 < lastTick.time.lockDue ∧
      LocksLawful lastTick ∧ WaitLaw lastTick) ∧
    (lastTick.lock 63).onLastTick = true ∧ (lastTick.lock 0).onLastTick = true ∧
    (lastTick.lock 1).onLastTick = false :=
  ⟨⟨by decide, by decide, by decide, lastTick_locks, lastTick_waits⟩, by decide, by decide, by decide⟩

theorem witness_EventsNotDueChangeNothing :
    (Running frozen ∧ frozen.pins.frozen = true) ∧
    (Running State.reset ∧ State.reset.time.lockDue = 0 ∧ State.reset.time.portDue = 0) ∧
    State.reset.engine.state = .idle := by decide

theorem witness_DeadlineTickAtEveryPort :
    (Running lastTick ∧ lastTick.pins.frozen = false ∧ 0 < lastTick.time.portDue ∧
      WaitLaw lastTick ∧ DeadlineLaw lastTick) ∧
    (lastTick.agent 1).deadline = some 1 ∧ (lastTick.agent 0).deadline ≠ some 1 :=
  ⟨⟨by decide, by decide, by decide, lastTick_waits, lastTick_deadlines⟩, by decide, by decide⟩

/-- Agent 15 calls for lock 63 with the mode given. -/
def wants63 (k : Lock) (mode : Word) : State :=
  calling (State.reset.setLock 63 k) 15 (words 63 mode 3 0 0)

theorem witness_AcquireOfFreeLock :
    Ready (wants63 Lock.initial 1) 15 ∧ NamesLock (wants63 Lock.initial 1) 15 63 ∧
    ModeInRange (wants63 Lock.initial 1) 15 ∧
    admits ((wants63 Lock.initial 1).lock 63).useMask 15 = true ∧
    ((wants63 Lock.initial 1).lock 63).hold = none := by decide

/-- Depth 14, the last that nests, and depth 15, which is refused. -/
theorem witness_AcquireByHolderNests :
    (∀ k ∈ [heldLock 15 14 none 0 [], heldLock 15 15 none 0 []],
      Ready (wants63 k 0) 15 ∧ NamesLock (wants63 k 0) 15 63 ∧ ModeInRange (wants63 k 0) 15 ∧
      admits ((wants63 k 0).lock 63).useMask 15 = true) ∧
    ((wants63 (heldLock 15 14 none 0 []) 0).lock 63).hold =
      some { holder := 15, depth := 14, lease := none } ∧
    ((wants63 (heldLock 15 15 none 0 []) 0).lock 63).hold =
      some { holder := 15, depth := 15, lease := none } := by decide

/-- Mode 2 is out of range; a use mask without agent 15. -/
theorem witness_AcquireChecksModeThenMask :
    (Ready (wants63 Lock.initial 2) 15 ∧ NamesLock (wants63 Lock.initial 2) 15 63 ∧
      ¬ ModeInRange (wants63 Lock.initial 2) 15) ∧
    (Ready (wants63 { Lock.initial with useMask := 0x7FFF } 1) 15 ∧
      ModeInRange (wants63 { Lock.initial with useMask := 0x7FFF } 1) 15 ∧
      admits ((wants63 { Lock.initial with useMask := 0x7FFF } 1).lock 63).useMask 15 = false) := by
  decide

/-- Agent 15 wants lock 63 of agent 2, which waits for lock 0 of agent 15. -/
def circle : State :=
  waitingFor ((wants63 (heldLock 2 1 none 0 []) 1).setLock 0 (heldLock 15 1 none 0 [2])) 2
    (.acquire 0) none

theorem not_leadsTo (s : State) (a b : Agent) (h : s.waitsOn a = none) (hne : a ≠ b) :
    ¬ LeadsTo s a b := by
  intro hl
  cases hl with
  | here => exact hne rfl
  | next _ c _ hc _ => simp [h] at hc

theorem witness_AcquireOfLockHeldByOther :
    (Ready (wants63 (heldLock 2 1 none 0 []) 0) 15 ∧
      (wants63 (heldLock 2 1 none 0 []) 0).operand 15 1 = 0 ∧
      ((wants63 (heldLock 2 1 none 0 []) 0).lock 63).hold =
        some { holder := 2, depth := 1, lease := none }) ∧
    (Ready circle 15 ∧ circle.operand 15 1 = 1 ∧
      (circle.lock 63).hold = some { holder := 2, depth := 1, lease := none } ∧
      admits (circle.lock 63).useMask 15 = true ∧ LeadsTo circle 2 15) ∧
    (∀ q ∈ [true, false],
      (setQuiesce (wants63 (heldLock 2 1 none 0 []) 1) q).sup.quiesce = q ∧
      (setQuiesce (wants63 (heldLock 2 1 none 0 []) 1) q).operand 15 1 = 1 ∧
      ¬ LeadsTo (setQuiesce (wants63 (heldLock 2 1 none 0 []) 1) q) 2 15) := by
  refine ⟨by decide, ⟨by decide, by decide, by decide, by decide, ?_⟩, ?_⟩
  · exact .next 2 15 15 (by decide) (.here 15)
  · intro q hq
    refine ⟨rfl, rfl, not_leadsTo _ _ _ ?_ (by decide)⟩
    cases q <;> decide

/-- Not the holder, on a FREE lock and on another's; depth 2; depth 1 alone and with a waiter. -/
theorem witness_ReleaseAndRenewByHolder :
    (Ready (wants63 Lock.initial 0) 15 ∧
      ∀ h ∈ ((wants63 Lock.initial 0).lock 63).hold, h.holder ≠ 15) ∧
    (Ready (wants63 (heldLock 2 1 none 0 []) 0) 15 ∧
      ∀ h ∈ ((wants63 (heldLock 2 1 none 0 []) 0).lock 63).hold, h.holder ≠ 15) ∧
    (Ready (wants63 (heldLock 15 2 none 0 []) 0) 15 ∧
      ((wants63 (heldLock 15 2 none 0 []) 0).lock 63).hold =
        some { holder := 15, depth := 2, lease := none }) ∧
    (Ready (wants63 (heldLock 15 1 none 0 [0]) 0) 15 ∧
      NamesLock (wants63 (heldLock 15 1 none 0 [0]) 0) 15 63 ∧
      ((wants63 (heldLock 15 1 none 0 [0]) 0).lock 63).waiters = 0 :: []) ∧
    ((wants63 (heldLock 15 1 none 0 []) 0).lock 63).waiters = [] := by decide

/-- SOPA of 64, the first out of range; lock 63 HELD and FREE. -/
theorem witness_LockConfigOfFreeLock :
    (Running State.reset ∧ 63 < ((commanding State.reset (words 64 0 0 0 0)).supOperand 0).toNat) ∧
    SupNames (commanding State.reset (words 63 0 0 0 0)) (63 : LockId) ∧
    (State.reset.lock 63).hold = none ∧ (lastTick.lock 63).hold ≠ none := by decide

theorem witness_PortChecksInOrder :
    (Running lastTick ∧ (lastTick.agent 0).port = .detached) ∧
    (lastTick.agent 1).port = .waiting { want := .acquire 63, deadline := some 1 } ∧
    ((after .retire (commanding lastTick (words 2 0 0 0 0))).agent 2).port = .retiring ∧
    (Instr.unknownAgentCommandCode 0 0xFFFF).wellFormed = true ∧
    (Ready (calling State.reset 3 (words 64 0 0 0 0)) 3 ∧
      63 < ((calling State.reset 3 (words 64 0 0 0 0)).operand 3 0).toNat) ∧
    (Ready (calling State.reset 3 (words 32 0 0 0 0)) 3 ∧
      31 < ((calling State.reset 3 (words 32 0 0 0 0)).operand 3 0).toNat) := by decide

/-- A refusal without a record, and a DENIED one with it. -/
theorem witness_RefusalChangesOnlyResult :
    (Running State.reset ∧
      exec (AgentCmd.command 3 .acquire) State.reset =
        .next (after (.acquire 3) State.reset) ∧
      ((after (.acquire 3) State.reset).agent 3).res.code = .notAttached) ∧
    (exec (AgentCmd.command 3 .attach) State.reset = .next (after (.attach 3) State.reset) ∧
      ((after (.attach 3) State.reset).agent 3).res.code = .denied) :=
  ⟨⟨by decide, rfl, by decide⟩, rfl, by decide⟩

theorem witness_AttachJudgedAgainstPermit :
    (Running State.reset ∧ (State.reset.agent 15).port = .detached ∧
      admits State.reset.sup.permit 15 = false) ∧
    admits ({ Supervision.initial with permit := 0x8000 } : Supervision).permit 15 = true ∧
    (lastTick.agent 2).port = .attached ∧
    (lastTick.agent 1).port = .waiting { want := .acquire 63, deadline := some 1 } ∧
    ((after .retire (commanding lastTick (words 2 0 0 0 0))).agent 2).port = .retiring := by decide

/-- Agent 2 holds lock 63; agent 15 holds nothing; agents 1, 2 and 0 are WAITING, RETIRING and DETACHED. -/
theorem witness_DetachLeavesNothingHeld :
    (Running lastTick ∧
      (lastTick.agent 1).port = .waiting { want := .acquire 63, deadline := some 1 } ∧
      ((after .retire (commanding lastTick (words 2 0 0 0 0))).agent 2).port = .retiring ∧
      (lastTick.agent 0).port = .detached) ∧
    (Ready lastTick 2 ∧ ∃ l, ∃ h ∈ (lastTick.lock l).hold, h.holder = 2) ∧
    (Ready (wants63 Lock.initial 0) 15 ∧
      ∀ l, ∀ h ∈ ((wants63 Lock.initial 0).lock l).hold, h.holder ≠ 15) :=
  ⟨by decide, ⟨by decide, 63, _, rfl, rfl⟩, by decide, by decide +kernel⟩

theorem witness_CancelEndsWaitWithoutNotice :
    Running lastTick ∧ WaitLaw lastTick ∧ (lastTick.agent 2).port = .attached ∧
    (lastTick.agent 1).port = .waiting { want := .acquire 63, deadline := some 1 } :=
  ⟨by decide, lastTick_waits, by decide, by decide⟩

/-- An event that sets LEASE_LOST keeps it set. -/
theorem witness_NoticesReadAndKept :
    Running State.reset ∧
    (exec .freezeAssert (after (.attach 4) State.reset) =
        .next (setFreeze (after (.attach 4) State.reset) true) ∧
      Instr.freezeAssert.wellFormed = true ∧
      holdsNotice ((after (.attach 4) State.reset).agent 0).notices .violation = true) :=
  ⟨by decide, rfl, by decide, by decide⟩

theorem witness_NoticeEnableIsItsOwners :
    Running State.reset ∧ Instr.clear.agentPageTag ≠ some 0 ∧
    (Instr.nenWrite 1 0).agentPageTag ≠ some 0 ∧ Instr.clear.wellFormed = true ∧
    exec .clear State.reset = .next (after .clear State.reset) :=
  ⟨by decide, by decide, by decide, rfl, rfl⟩

theorem witness_OtherAgentsOperandsStagingEnableWatchAndLatchKept :
    exec (.registerWrite 3 0x1C 7) State.reset =
      .next (after (.registerWrite 3 0x1C 7) State.reset) ∧
    (Instr.registerWrite 3 0x1C 7).agentPageTag = some 3 :=
  ⟨rfl, by decide⟩

theorem lastTick_jobs : JobLaw lastTick := by decide +kernel

theorem witness_AgentStatesFollowTable :
    exec (.cancel 1) lastTick = .next (after (.cancel 1) lastTick) ∧
    (Instr.cancel 1).wellFormed = true ∧ WaitLaw lastTick ∧ JobLaw lastTick :=
  ⟨rfl, by decide, lastTick_waits, lastTick_jobs⟩

theorem witness_QuiesceModeRefusesNewWaits :
    Running lastTick ∧ (setQuiesce lastTick true).sup.quiesce = true ∧
    exec (.cancel 2) (setQuiesce lastTick true) =
      .next (after (.cancel 2) (setQuiesce lastTick true)) ∧
    ((after (.cancel 2) (setQuiesce lastTick true)).agent 1).port.isWaiting = true :=
  ⟨by decide, rfl, rfl, by decide⟩

theorem witness_ViolationsAreCaptured :
    State.reset.sup.capture = none ∧
    (after (.attach 4) State.reset).sup.capture =
      some { tag := 4, event := .command .attach 0, more := false } ∧
    (Running State.reset ∧ (15 : Agent) ≠ State.reset.sup.tag ∧
      (Instr.supervisorPageWriteDenied 15 0xFE 0).wellFormed = true ∧
      (Instr.supervisorPageWriteDenied 15 0x80 0).wellFormed = true) := by decide

theorem witness_CommandCodesStartCommands :
    Running State.reset ∧ (Instr.unknownSupervisorCommandCode 0).wellFormed = true := by decide

/-- Both ends of each range of offsets that a write leaves alone. -/
theorem witness_PlainRegisterWrites :
    Running State.reset ∧
    (∀ off ∈ [(0x0C : Offset), 0x12, 0x16, 0x18, 0x2E, 0x7E], off.getLsbD 0 = false ∧
      (0x0C ≤ off.toNat ∧ off.toNat ≤ 0x12 ∨ off = 0x16 ∨ off = 0x18 ∨
        0x2E ≤ off.toNat ∧ off.toNat ≤ 0x7E)) ∧
    (∀ off ∈ [(0x8C : Offset), 0x8E, 0x94, 0xA0, 0xA4, 0xAA, 0xAE, 0xFE], off.getLsbD 0 = false ∧
      (off = 0x8C ∨ off = 0x8E ∨ 0x94 ≤ off.toNat ∧ off.toNat ≤ 0xA0 ∨
        0xA4 ≤ off.toNat ∧ off.toNat ≤ 0xAA ∨ 0xAE ≤ off.toNat)) ∧
    State.reset.bus.abandoned.head? ≠ some true ∧
    (abandoning State.reset).bus.abandoned.head? = some true := by decide

theorem witness_RegistersRead :
    (lastTick.agent 0).port = .detached ∧ (lastTick.agent 2).port = .attached ∧
    ((after .retire (commanding lastTick (words 2 0 0 0 0))).agent 2).port = .retiring ∧
    (lastTick.agent 1).port = .waiting { want := .acquire 63, deadline := some 1 } ∧
    ((blockedSenders 1).agent 7).port =
      .waiting { want := .send 0 (note 7 .normal 2), deadline := none } ∧
    (twoReceivers.agent 4).port = .waiting { want := .receive 31 0 0, deadline := some 9 } ∧
    ((after (.renew 2) (calling lastTick 2 (words 63 0 0 0 0))).agent 2).res = .doneWith 4 ∧
    ((after (.acquire 15) (wants63 Lock.initial 0)).agent 15).res = .granted false ∧
    ((after (.receive 6) (blockedSenders 0)).agent 6).res = .delivered (note 8 .urgent 3) ∧
    ((1 : Agent) ≠ lastTick.sup.tag ∧ (0x80 : Offset).getLsbD 7 = true) ∧
    (63 < (64 : Word).toNat ∧ 31 < (32 : Word).toNat) := by decide

/-- A selected lock that is FREE, one that is HELD, and selected queues in each state. -/
theorem witness_RegistersRead_inspection :
    (lastTick.sup.lockSel.toNat = (0 : LockId).val ∧
      (lastTick.lock 0).hold = some { holder := 3, depth := 1, lease := some 1 } ∧
      (lastTick.lock 0).broken = false ∧ (lastTick.lock 0).waiters.length ≤ 15) ∧
    (State.reset.lock 0).hold = none ∧
    ((blockedSenders 1).sup.queueSel.toNat = (0 : QueueId).val ∧
      ((blockedSenders 1).queue 0).held ≤ 256 ∧
      ((blockedSenders 1).queue 0).state = .opened { capacity := 1, reserve := 0 }) ∧
    (State.reset.queue 0).state = .closed ∧
    ((after .queueClose (blockedSenders 1)).queue 0).state =
      .purging { capacity := 1, reserve := 0 } true ∧
    ((blockedSenders 1).queue 0).bound = none ∧
    ((after (.bind 6) (blockedSenders 1)).queue 0).bound = some 6 := by decide

/-- A cleared delivery area, an unused offset of each page at its boundaries, a short Job List, and the capture empty and of each kind. -/
theorem witness_RegistersReadTheirFields :
    (State.reset.agent 0).delivery.length ≤ 8 ∧
    (0x44 ≤ (0x44 : Offset).toNat ∧ (0x7E : Offset).toNat ≤ 0x7E ∧ 0xBC ≤ (0xFE : Offset).toNat) ∧
    lastTick.engine.jobs.length ≤ 48 ∧ State.reset.sup.capture = none ∧
    (after (.attach 4) State.reset).sup.capture =
      some { tag := 4, event := .command .attach 0, more := false } ∧
    (after (.supervisorPageWriteDenied 15 0xFE 7) State.reset).sup.capture =
      some { tag := 15, event := .pageWrite 0xFE, more := false } ∧
    ((blockedSenders 1).sup.queueSel.toNat = (0 : QueueId).val ∧
      ((blockedSenders 1).queue 0).receivers.length ≤ 16 ∧
      (blockedSenders 1).senderWait.length ≤ 16) ∧
    State.reset.sup.sres = .none ∧
    (Running State.reset ∧ (0x92 : Offset).getLsbD 0 = false ∧
      (0x92 : Offset) ∉ [(0x12 : Offset), 0x16, 0x18]) ∧
    State.reset.bus.abandoned.head? ≠ some true ∧
    (abandoning State.reset).bus.abandoned.head? = some true := by decide

theorem witness_ClearKeepsConfiguration : Running lastTick := by decide

theorem witness_ClearMeetsBlockEvents :
    Running lastTick ∧
    Instr.leaseCountdown ∈ [Instr.refclkPeriodCounted, .tick, .leaseCountdown, .deadlineCountdown,
      .lockSweepStep, .queueSweepStep, .purgeStep] ∧
    Instr.leaseExpiry 63 ∈ [Instr.leaseExpiry 63, .deadlineExpiry 1] ∧
    Instr.deadlineExpiry 1 ∈ [Instr.leaseExpiry 63, .deadlineExpiry 1] := by decide

/-- Queue 32, the first out of range; each check at its boundary: capacities 0, 257 and 256, a reserve above the capacity, a reserve above the unreserved free count. -/
theorem witness_QueueOpenChecksAndOpens :
    (Running State.reset ∧ 31 < ((commanding State.reset (words 32 0 0 0 0)).supOperand 0).toNat) ∧
    (SupNames (commanding twoReceivers (words 31 1 0 0 0)) (31 : QueueId) ∧
      (twoReceivers.queue 31).state ≠ .closed) ∧
    (State.reset.queue 31).state = .closed ∧
    (commanding State.reset (words 31 0 0 0 0)).supOperand 1 = 0 ∧
    256 < ((commanding State.reset (words 31 257 0 0 0)).supOperand 1).toNat ∧
    ((commanding State.reset (words 31 1 2 0 0)).supOperand 1).toNat <
      ((commanding State.reset (words 31 1 2 0 0)).supOperand 2).toNat ∧
    ((commanding State.reset (words 31 256 256 0 0)).supOperand 2).toNat ≤
      (commanding State.reset (words 31 256 256 0 0)).unreserved ∧
    (commanding (blockedSenders 1) (words 31 256 256 0 0)).unreserved <
      ((commanding (blockedSenders 1) (words 31 256 256 0 0)).supOperand 2).toNat := by decide

theorem witness_StoreEmptyOnFallToZero :
    exec .queueOpen (commanding State.reset (words 0 256 256 0 0)) =
      .next (after .queueOpen (commanding State.reset (words 0 256 256 0 0))) ∧
    Instr.queueOpen ∈ [Instr.send 0, .receive 0, .queueOpen, .queueClose, .queuePurge, .purgeStep] :=
  ⟨rfl, by decide⟩

theorem twoReceivers_waits : WaitLaw twoReceivers := by decide +kernel

theorem blockedSenders_waits : WaitLaw (blockedSenders 1) := by decide +kernel

/-- Queue 32; a CLOSED, a PURGING, an empty OPEN and a filled OPEN queue. -/
theorem witness_QueueCloseAndPurgeByState :
    (Running twoReceivers ∧ WaitLaw twoReceivers ∧
      31 < ((commanding twoReceivers (words 32 0 0 0 0)).supOperand 0).toNat) ∧
    (twoReceivers.queue 0).state = .closed ∧
    (SupNames (commanding twoReceivers (words 31 0 0 0 0)) (31 : QueueId) ∧
      (twoReceivers.queue 31).state = .opened { capacity := 4, reserve := 1 } ∧
      (twoReceivers.queue 31).messages = []) ∧
    (Running (blockedSenders 1) ∧ WaitLaw (blockedSenders 1) ∧
      SupNames (blockedSenders 1) (0 : QueueId) ∧ ((blockedSenders 1).queue 0).messages ≠ []) ∧
    ((after .queuePurge (blockedSenders 1)).queue 0).state =
      .purging { capacity := 1, reserve := 0 } false :=
  ⟨⟨by decide, twoReceivers_waits, by decide⟩, by decide, by decide,
    ⟨by decide, blockedSenders_waits, by decide, by decide⟩, by decide⟩

/-- Agent 2 calls for queue 31, which is as given. -/
def wants31 (k : Queue) : State :=
  calling (State.reset.setQueue 31 k) 2 (words 31 0 0 0 0)

theorem witness_BindAndUnbind :
    (Ready (wants31 (openQueue 1 0 [] [])) 2 ∧ NamesQueue (wants31 (openQueue 1 0 [] [])) 2 31 ∧
      admits ((wants31 (openQueue 1 0 [] [])).queue 31).recvMask 2 = true ∧
      ((wants31 (openQueue 1 0 [] [])).queue 31).state = .opened { capacity := 1, reserve := 0 } ∧
      ((wants31 (openQueue 1 0 [] [])).queue 31).bound = none ∧
      ((wants31 (openQueue 1 0 [] [])).queue 31).receivers = []) ∧
    admits ((wants31 { Queue.initial with recvMask := 0xFFFB }).queue 31).recvMask 2 = false ∧
    ((wants31 Queue.initial).queue 31).state = .closed ∧
    ((wants31 { Queue.initial with state := .purging { capacity := 1, reserve := 0 } true }).queue
      31).state = .purging { capacity := 1, reserve := 0 } true ∧
    ((wants31 { openQueue 1 0 [] [] with bound := some 3 }).queue 31).bound = some 3 ∧
    ((wants31 { openQueue 1 0 [] [] with bound := some 2 }).queue 31).bound = some 2 ∧
    ((wants31 (openQueue 1 0 [] [{ agent := 3, label := 0, mask := 0 }])).queue 31).receivers ≠ [] := by
  decide

/-- Agent 2 calls for queue 31 with the watch list given. -/
def watching (l : List (Option QueueId)) (h : l.length = 4) : State :=
  (wants31 Queue.initial).setAgent 2 { (wants31 Queue.initial).agent 2 with watch := ⟨l, h⟩ }

/-- Watched already; no empty position; the last position empty. -/
theorem witness_WatchAndUnwatch :
    (Ready (watching [none, none, none, some 31] rfl) 2 ∧
      NamesQueue (watching [none, none, none, some 31] rfl) 2 31 ∧
      ((watching [none, none, none, some 31] rfl).agent 2).watch.get 3 = some 31 ∧
      ∀ j < (3 : Fin 4), ((watching [none, none, none, some 31] rfl).agent 2).watch.get j ≠ some 31) ∧
    admits ((wants31 { Queue.initial with recvMask := 0xFFFB }).queue 31).recvMask 2 = false ∧
    ((∀ k, ((watching [some 0, some 1, some 2, some 3] rfl).agent 2).watch.get k ≠ some 31) ∧
      ∀ k, ((watching [some 0, some 1, some 2, some 3] rfl).agent 2).watch.get k ≠ none) ∧
    ((∀ k, ((watching [some 0, some 1, some 2, none] rfl).agent 2).watch.get k ≠ some 31) ∧
      ((watching [some 0, some 1, some 2, none] rfl).agent 2).watch.get 3 = none ∧
      ∀ j < (3 : Fin 4), ((watching [some 0, some 1, some 2, none] rfl).agent 2).watch.get j ≠ none) := by
  decide

/-- A full staging area with the last queue as reply queue, and an empty one without. -/
theorem witness_CaptureAndDeliveryAreFaithful :
    StagingInRange { Staging.cleared with length := 8, replyPresent := true, replyQueue := 31 } ∧
    StagingInRange Staging.cleared ∧ (note 0 .normal 0).payload.length ≤ 8 := by decide

/-- A length of 9, a reply queue of 32, a mode of 2; a mask without the caller; a CLOSED and a PURGING queue; a binding to another. -/
theorem witness_SendAndReceiveChecksInOrder :
    (Ready (wants31 Queue.initial) 2 ∧ NamesQueue (wants31 Queue.initial) 2 31 ∧
      ModeInRange (wants31 Queue.initial) 2 ∧
      StagingInRange ((wants31 Queue.initial).agent 2).staging ∧
      ((wants31 Queue.initial).queue 31).state = .closed) ∧
    ¬ StagingInRange { Staging.cleared with length := 9 } ∧
    ¬ StagingInRange { Staging.cleared with replyPresent := true, replyQueue := 32 } ∧
    ¬ ModeInRange (calling State.reset 2 (words 31 2 0 0 0)) 2 ∧
    admits (0xFFFB : Word) 2 = false ∧
    ((wants31 { Queue.initial with state := .purging { capacity := 1, reserve := 0 } true }).queue
      31).state = .purging { capacity := 1, reserve := 0 } true ∧
    ((wants31 { openQueue 1 0 [] [] with bound := some 3 }).queue 31).bound = some 3 := by decide

theorem witness_SendHandsOffToWaitingReceiver :
    SendPasses twoReceivers 6 31 { capacity := 4, reserve := 1 } ∧ WaitLaw twoReceivers ∧
    (twoReceivers.agent 6).staging.capture 6 = note 6 .normal 0 ∧
    (twoReceivers.queue 31).receivers =
      [{ agent := 5, label := 0x0300, mask := 0xFF00 }] ++
        { agent := 4, label := 0, mask := 0 } :: [] ∧
    labelMatches 0x0300 0xFF00 (note 6 .normal 0) = false ∧
    labelMatches 0 0 (note 6 .normal 0) = true :=
  ⟨by decide, twoReceivers_waits, by decide, by decide, by decide, by decide⟩

/-- The last slot of the capacity taken from the reserve with nothing unreserved, and the first beyond a reserve of 0. -/
theorem witness_SendAdmitsToMessageList :
    (SendPasses { wants31 (openQueue 2 2 [{ msg := note 9 .normal 1, seq := 4 }] []) with
        freeCount := 1 } 2 31 { capacity := 2, reserve := 2 } ∧
      { wants31 (openQueue 2 2 [{ msg := note 9 .normal 1, seq := 4 }] []) with
        freeCount := 1 }.unreserved = 0) ∧
    (SendPasses (wants31 (openQueue 1 0 [] [])) 2 31 { capacity := 1, reserve := 0 } ∧
      ((wants31 (openQueue 1 0 [] [])).agent 2).staging.capture 2 = note 2 .normal 0 ∧
      0 < (wants31 (openQueue 1 0 [] [])).unreserved ∧
      ((wants31 (openQueue 1 0 [] [])).queue 31).messages = [] ++ []) := by decide

/-- At the capacity, and at the reserve with nothing unreserved; each mode, with quiesce mode on and off. -/
theorem witness_SendWithoutRoom :
    (SendPasses (blockedSenders 0) 6 0 { capacity := 1, reserve := 0 } ∧
      1 ≤ ((blockedSenders 0).queue 0).messages.length ∧ (blockedSenders 0).operand 6 1 = 0) ∧
    (SendPasses (blockedSenders 1) 6 0 { capacity := 1, reserve := 0 } ∧
      1 ≤ ((blockedSenders 1).queue 0).messages.length ∧ (blockedSenders 1).operand 6 1 = 1) := by
  decide

/-- The same with quiesce mode on, and with the unreserved pool empty. -/
theorem witness_SendWithoutRoom_quiesced :
    (blockedSenders 1).sup.quiesce = false ∧
    (setQuiesce (blockedSenders 1) true).sup.quiesce = true ∧
    SendPasses (setQuiesce (blockedSenders 1) true) 6 0 { capacity := 1, reserve := 0 } ∧
    (setQuiesce (blockedSenders 1) true).operand 6 1 = 1 ∧
    SendPasses { wants31 (openQueue 2 0 [] []) with freeCount := 0 } 2 31
      { capacity := 2, reserve := 0 } ∧
    { wants31 (openQueue 2 0 [] []) with freeCount := 0 }.unreserved = 0 :=
  ⟨rfl, rfl, by decide, rfl, by decide, rfl⟩

theorem witness_ReceiveTakesFirstMatch :
    ReceivePasses (wants31 (openQueue 2 0 [{ msg := note 9 .normal 1, seq := 4 }] [])) 2 31
      { capacity := 2, reserve := 0 } ∧
    ((wants31 (openQueue 2 0 [{ msg := note 9 .normal 1, seq := 4 }] [])).queue 31).messages =
      [] ++ { msg := note 9 .normal 1, seq := 4 } :: [] ∧
    FilterTakes (wants31 (openQueue 2 0 [{ msg := note 9 .normal 1, seq := 4 }] [])) 2
      (note 9 .normal 1) := by decide

theorem witness_ReceiveTakesFromBlockedSender :
    ReceivePasses (blockedSenders 1) 6 0 { capacity := 1, reserve := 0 } ∧ WaitLaw (blockedSenders 1) ∧
    (∀ x ∈ ((blockedSenders 1).queue 0).messages, ¬ FilterTakes (blockedSenders 1) 6 x.msg) ∧
    (blockedSenders 1).senderWait = [7] ++ 8 :: [] ∧
    ((blockedSenders 1).agent 8).awaitedSend = some (0, note 8 .urgent 3) ∧
    FilterTakes (blockedSenders 1) 6 (note 8 .urgent 3) ∧
    ((blockedSenders 1).agent 7).awaitedSend = some (0, note 7 .normal 2) ∧
    ¬ FilterTakes (blockedSenders 1) 6 (note 7 .normal 2) :=
  ⟨by decide, blockedSenders_waits, by decide, by decide, by decide, by decide, by decide, by decide⟩

theorem witness_ReceiveFindsNothing :
    (ReceivePasses (wants31 (openQueue 2 0 [] [])) 2 31 { capacity := 2, reserve := 0 } ∧
      ((wants31 (openQueue 2 0 [] [])).queue 31).messages = [] ∧
      (wants31 (openQueue 2 0 [] [])).senderWait = [] ∧
      (wants31 (openQueue 2 0 [] [])).operand 2 1 = 0) ∧
    (ReceivePasses (calling (wants31 (openQueue 2 0 [] [])) 2 (words 31 1 0 0 0)) 2 31
        { capacity := 2, reserve := 0 } ∧
      (calling (wants31 (openQueue 2 0 [] [])) 2 (words 31 1 0 0 0)).operand 2 1 = 1) := by decide

/-- `blockedSenders 1` with room in queue 0, an URGENT message ahead of a NORMAL one there. -/
def roomForSenders : State :=
  (blockedSenders 1).setQueue 0
    (openQueue 3 0 [{ msg := note 9 .urgent 1, seq := 4 }, { msg := note 9 .normal 1, seq := 5 }] [])

/-- An entry whose queue is full, and one whose queue has room. -/
theorem witness_AdmissionPassServesOldestFirst :
    State.reset.senderWait = [] ∧ (blockedSenders 1).senderWait = 7 :: [8] ∧
    (((blockedSenders 1).agent 7).awaitedSend = some (0, note 7 .normal 2) ∧
      ((blockedSenders 1).queue 0).receivers = [] ∧ (blockedSenders 1).canAdmit 0 = false) ∧
    ((roomForSenders.agent 8).awaitedSend = some (0, note 8 .urgent 3) ∧
      (roomForSenders.queue 0).receivers = [] ∧ roomForSenders.canAdmit 0 = true ∧
      (roomForSenders.queue 0).messages =
        [{ msg := note 9 .urgent 1, seq := 4 }] ++ [{ msg := note 9 .normal 1, seq := 5 }]) := by
  decide

/-- The URGENT message of agent 8 is placed behind the URGENT one and before the NORMAL one. -/
theorem test_admission_places_by_urgency :
    (((serveSender roomForSenders 8).queue 0).messages.map fun d => d.msg.source) = [9, 8, 9] := by
  decide

/-- SOPA of 16, the first out of range; each state of the agent. -/
theorem witness_RetireStartsRetirement :
    (Running lastTick ∧ WaitLaw lastTick ∧
      15 < ((commanding lastTick (words 16 0 0 0 0)).supOperand 0).toNat) ∧
    SupNames (commanding lastTick (words 15 0 0 0 0)) (15 : Agent) ∧
    (lastTick.agent 15).port = .detached ∧ (lastTick.agent 2).port = .attached ∧
    (lastTick.agent 1).port.isWaiting = true ∧
    ((after .retire (commanding lastTick (words 2 0 0 0 0))).agent 2).port = .retiring :=
  ⟨⟨by decide, lastTick_waits, by decide⟩, by decide, by decide, by decide, by decide, by decide⟩

/-- `lastTick` with agent `r` in the lock sweep at lock `c`. -/
def sweeping (r : Agent) (c : LockId) : State :=
  { lastTick with engine := { jobs := [.retire r], state := .retireLocks r c } }

/-- The last lock, held with a waiter; the first, held with none; a FREE one. -/
theorem witness_LockSweepStepTakesLock :
    (Running (sweeping 2 63) ∧ (sweeping 2 63).engine.state = .retireLocks 2 63 ∧
      ((sweeping 2 63).lock 63).waiters = 1 :: []) ∧
    ((sweeping 3 0).lock 0).waiters = [] ∧
    (∀ h ∈ ((sweeping 3 1).lock 1).hold, h.holder ≠ 3) := by decide

theorem witness_QueueSweepStepsEndRetirement :
    (Running State.reset ∧ (31 : QueueId).val = (30 : QueueId).val + 1) ∧
    (∀ c : QueueId, ({ State.reset with
      engine := { jobs := [.retire 2, .purge 0], state := .retireQueues 2 c } } : State).engine.state =
      .retireQueues 2 c) :=
  ⟨by decide, fun _ => rfl⟩

/-- Queue 2 in its purge with the messages given. -/
def purging (msgs : List Stored) : State :=
  { State.reset.setQueue 2 { openQueue 3 1 msgs [] with
      state := .purging { capacity := 3, reserve := 1 } false } with
    freeCount := 256 - msgs.length, engine := { jobs := [.purge 2], state := .purge 2 } }

theorem witness_PurgeStepsEmptyQueue :
    Running (purging []) ∧ (purging []).engine.state = .purge 2 ∧
    ((purging [{ msg := note 1 .normal 0, seq := 0 }, { msg := note 1 .normal 0, seq := 1 }]).queue
      2).messages = { msg := note 1 .normal 0, seq := 0 } :: { msg := note 1 .normal 0, seq := 1 } :: [] ∧
    ((purging [{ msg := note 1 .normal 0, seq := 0 }]).queue 2).state =
      .purging { capacity := 3, reserve := 1 } false ∧
    ((purging [{ msg := note 1 .normal 0, seq := 0 }]).queue 2).messages =
      [{ msg := note 1 .normal 0, seq := 0 }] := by decide

/-- A waiting agent, two held locks, a tick to take and a command in the queue make a lawful state with a next one. -/
theorem lastTick_noCircle : NoCircle lastTick := by
  intro a b h hl
  have hb : ∀ a b, lastTick.waitsOn a = some b → a = 1 ∧ b = 2 := by decide +kernel
  obtain ⟨rfl, rfl⟩ := hb a b h
  exact not_leadsTo lastTick 2 1 (by decide) (by decide) hl

theorem lastTick_lawful : Lawful lastTick where
  locks := lastTick_locks
  queues := by decide +kernel
  store := by decide +kernel
  order := by decide +kernel
  wait := lastTick_waits
  blocked := by decide +kernel
  deadlines := lastTick_deadlines
  noCircle := lastTick_noCircle
  noMatch := by decide +kernel
  noRoom := by decide +kernel
  bound := by decide +kernel
  jobs := lastTick_jobs
  sweep := by decide +kernel
  detached := by decide +kernel
  notices := by decide +kernel
  time := by decide +kernel
  reset := by decide
  bus := by decide

/-- One state meets the hypotheses of every invariant's statement: the laws, and a step that takes a command. -/
theorem witness_EveryStepKeeps :
    Lawful lastTick ∧
    step lastTick = .next (setFreeze { lastTick with pending := [] } true) ∧
    registerRead 2 0x10 lastTick = .next (lastTick.answerRead (lastTick.readReg 2 0x10)) :=
  ⟨lastTick_lawful, rfl, rfl⟩

end Sys2Proof.Tests
end

/-! Outcomes: what a bus cycle, an event of a block and a step can end in, for every invariant to cite. -/

namespace Sys2Proof.Machine

/-- A write cycle ends with the access unanswered and not taken, or taken and answered. -/
theorem writeCycle_next {s s' : State} {access : State → State}
    (run : writeCycle s access = .next s') :
    s' = s.unanswered ∨ s' = (access s).answerWrite := by
  unfold writeCycle at run
  split at run
  · exact .inl (Host.Outcome.next.inj run).symm
  · exact .inr (Host.Outcome.next.inj run).symm

/-- A read cycle ends with the access unanswered and not taken, or taken and answered with its value. -/
theorem readCycle_next {s s' : State} {value : State → Word} {access : State → State}
    (run : readCycle s value access = .next s') :
    s' = s.unanswered ∨ s' = (access s).answerRead (value s) := by
  unfold readCycle at run
  split at run
  · exact .inl (Host.Outcome.next.inj run).symm
  · exact .inr (Host.Outcome.next.inj run).symm

/-- An event of a block is dropped or taken. -/
theorem blockEvent_next {s s' : State} {event : State → State}
    (run : blockEvent s event = .next s') : s' = s ∨ s' = event s := by
  unfold blockEvent at run
  split at run
  · exact .inl (Host.Outcome.next.inj run).symm
  · exact .inr (Host.Outcome.next.inj run).symm

/-- What every command keeps, and what does not speak of the queue of commands, every step keeps. -/
theorem step_keeps_of_exec {P : State → Prop}
    (dequeue : ∀ s rest, P s → P { s with pending := rest })
    (keeps : ∀ c s s', P s → exec c s = .next s' → P s')
    {s s' : State} (hs : P s) (run : step s = .next s') : P s' := by
  cases front : s.pending with
  | nil =>
    rw [step_idle s front] at run
    exact Host.Outcome.next.inj run ▸ hs
  | cons c rest =>
    rw [step_front s front] at run
    exact keeps c _ s' (dequeue s rest hs) run

/-- A write to CMD is refused by the port, or passes the common checks to its owner. -/
theorem acceptCommand_cases (s : State) (t : Agent) (c : Option AgentCmd) (owner : State → State) :
    (∃ code, acceptCommand s t c owner = s.refuse t code) ∨
    (portCheck (s.agent t).port c = none ∧ acceptCommand s t c owner = owner s) := by
  unfold acceptCommand
  split
  · next code _ => exact .inl ⟨code, rfl⟩
  · next passed => exact .inr ⟨passed, rfl⟩

/-- Only ATTACH and CANCEL pass the common checks in another state than ATTACHED. -/
theorem attached_of_portCheck {p : Port} {c : AgentCmd} (attach : c ≠ .attach)
    (cancel : c ≠ .cancel) (passed : portCheck p (some c) = none) : p = .attached := by
  cases p with
  | attached => rfl
  | _ => simp [portCheck, attach, cancel] at passed

end Sys2Proof.Machine

/-! What the records read after RESET and after CLEAR. -/

namespace Sys2Proof.Machine

@[simp] theorem reset_agent (a : Agent) : State.reset.agent a = .initial := Table.get_all _ a

@[simp] theorem reset_lock (l : LockId) : State.reset.lock l = .initial := Table.get_all _ l

@[simp] theorem reset_queue (q : QueueId) : State.reset.queue q = .initial := Table.get_all _ q

@[simp] theorem enterReset_agent (s : State) (a : Agent) : (enterReset s).agent a = .initial :=
  reset_agent a

@[simp] theorem enterReset_lock (s : State) (l : LockId) : (enterReset s).lock l = .initial :=
  reset_lock l

@[simp] theorem enterReset_queue (s : State) (q : QueueId) : (enterReset s).queue q = .initial :=
  reset_queue q

theorem reset_unreserved : State.reset.unreserved = 256 := by decide

/-- Whatever RESET# finds, the counts of the store after it are those of the state after RESET. -/
theorem enterReset_unreserved (s : State) : (enterReset s).unreserved = 256 :=
  (unreserved_congr (t := State.reset) rfl rfl).trans reset_unreserved

@[simp] theorem clearPart_agent (s : State) (a : Agent) :
    (clearPart s).agent a = (s.agent a).clear := Table.get_map _ _ a

@[simp] theorem clearPart_lock (s : State) (l : LockId) :
    (clearPart s).lock l = (s.lock l).clear := Table.get_map _ _ l

end Sys2Proof.Machine

/-! The law of one lock record (R1, R4), state by state of the lock, and the changes that keep it. -/

namespace Sys2Proof.Machine

/-- R4: the lease remaining is absent for a lease length of 0, and otherwise from 1 to the length. -/
def LeaseFits (leaseLength : Word) (lease : Option Nat) : Prop :=
  (lease = none → leaseLength = 0) ∧
  ∀ r ∈ lease, leaseLength ≠ 0 ∧ 1 ≤ r ∧ r ≤ leaseLength.toNat

theorem Lock.lawful_iff_of_free {k : Lock} (free : k.hold = none) :
    k.lawful = true ↔ k.waiters = [] := by
  simp [Lock.lawful, free]

theorem Lock.lawful_iff_of_held {k : Lock} {h : Hold} (held : k.hold = some h) :
    k.lawful = true ↔
      1 ≤ h.depth ∧ h.depth ≤ 15 ∧ k.broken = false ∧ LeaseFits k.leaseLength h.lease := by
  cases lease : h.lease <;> simp [Lock.lawful, LeaseFits, held, lease, and_assoc]

theorem Lock.leaseStart_eq (k : Lock) :
    k.leaseStart = if k.leaseLength = 0 then none else some k.leaseLength.toNat := rfl

/-- A lease that starts or restarts fits (R18). -/
theorem Lock.leaseStart_fits (k : Lock) : LeaseFits k.leaseLength k.leaseStart := by
  rw [Lock.leaseStart_eq]
  split
  · next zero => exact ⟨fun _ => zero, by simp⟩
  · next nonzero =>
    have pos : k.leaseLength.toNat ≠ 0 := fun e => nonzero (BitVec.eq_of_toNat_eq e)
    refine ⟨by simp, ?_⟩
    rintro r ⟨⟩
    exact ⟨nonzero, by omega, le_refl _⟩

/-- A lease lowered by one, not to zero, fits (R97). -/
theorem LeaseFits.lower {leaseLength : Word} {r : Nat} (fits : LeaseFits leaseLength (some r))
    (more : 1 < r) : LeaseFits leaseLength (some (r - 1)) := by
  obtain ⟨nonzero, -, le⟩ := fits.2 r rfl
  refine ⟨by simp, ?_⟩
  rintro _ ⟨⟩
  exact ⟨nonzero, by omega, by omega⟩

/-- A lock just granted is lawful, whoever waits for it. -/
theorem Lock.grantTo_lawful (k : Lock) (a : Agent) (waiters : List Agent) :
    Lock.lawful { k.grantTo a with waiters := waiters } = true := by
  rw [Lock.lawful_iff_of_held rfl]
  exact ⟨le_refl 1, Nat.le_of_ble_eq_true rfl, rfl, k.leaseStart_fits⟩

/-- The waiter list may shrink. -/
theorem Lock.lawful_filter_waiters {k : Lock} (p : Agent → Bool) (lawful : k.lawful = true) :
    Lock.lawful { k with waiters := k.waiters.filter p } = true := by
  cases state : k.hold with
  | none =>
    rw [Lock.lawful_iff_of_free state] at lawful
    rw [Lock.lawful_iff_of_free rfl]
    simp [lawful]
  | some h =>
    rw [Lock.lawful_iff_of_held state] at lawful
    rwa [Lock.lawful_iff_of_held rfl]

/-- The waiter list of a HELD lock may be any. -/
theorem Lock.lawful_waiters_of_held {k : Lock} {h : Hold} (held : k.hold = some h)
    (waiters : List Agent) (lawful : k.lawful = true) :
    Lock.lawful { k with waiters := waiters } = true :=
  (Lock.lawful_iff_of_held (k := { k with waiters := waiters }) held).mpr
    ((Lock.lawful_iff_of_held held).mp lawful)

/-- A HELD lock stays lawful under a hold with a depth in range and a lease that fits. -/
theorem Lock.lawful_rehold {k : Lock} {h : Hold} (h' : Hold) (held : k.hold = some h)
    (lawful : k.lawful = true) (low : 1 ≤ h'.depth) (high : h'.depth ≤ 15)
    (fits : LeaseFits k.leaseLength h.lease → LeaseFits k.leaseLength h'.lease) :
    Lock.lawful { k with hold := some h' } = true := by
  obtain ⟨-, -, whole, lease⟩ := (Lock.lawful_iff_of_held held).mp lawful
  exact (Lock.lawful_iff_of_held rfl).mpr ⟨low, high, whole, fits lease⟩

end Sys2Proof.Machine

/-! What an event can do to the locks: all but one kind let no agent start to wait for a lock, and give a lock only to an agent that waits for none. The one other kind is an ACQUIRE that joins a waiter list after its deadlock check. -/

namespace Sys2Proof.Machine

/-- No agent starts to wait for a lock, a lock changes hands only to an agent that waits for none, and a lawful lock stays lawful. -/
structure Unblocking (s s' : State) : Prop where
  lawful : ∀ l, (s.lock l).lawful = true → (s'.lock l).lawful = true
  holder : ∀ l, ∀ h' ∈ (s'.lock l).hold,
    (∃ h ∈ (s.lock l).hold, h.holder = h'.holder) ∨ (s'.agent h'.holder).awaitedLock = none
  waits : ∀ a l, (s'.agent a).awaitedLock = some l → (s.agent a).awaitedLock = some l

theorem Unblocking.stays_idle {s s' : State} (u : Unblocking s s') {a : Agent}
    (idle : (s.agent a).awaitedLock = none) : (s'.agent a).awaitedLock = none := by
  cases awaits : (s'.agent a).awaitedLock with
  | none => rfl
  | some l => exact absurd (u.waits a l awaits) (by simp [idle])

theorem Unblocking.refl (s : State) : Unblocking s s :=
  ⟨fun _ h => h, fun _ h' held => .inl ⟨h', held, rfl⟩, fun _ _ h => h⟩

theorem Unblocking.trans {s u v : State} (su : Unblocking s u) (uv : Unblocking u v) :
    Unblocking s v where
  lawful l h := uv.lawful l (su.lawful l h)
  waits a l h := su.waits a l (uv.waits a l h)
  holder l h'' held := by
    rcases uv.holder l h'' held with ⟨h', held', same⟩ | sink
    · rcases su.holder l h' held' with ⟨h, held, same'⟩ | sink
      · exact .inl ⟨h, held, same'.trans same⟩
      · exact .inr (uv.stays_idle (same ▸ sink))
    · exact .inr sink

/-- `trans` with the later of the two given first, which says what the earlier ends in. -/
theorem Unblocking.after {s u v : State} (uv : Unblocking u v) (su : Unblocking s u) :
    Unblocking s v :=
  su.trans uv

/-- The locks stay as they are. -/
theorem Unblocking.of_locks_eq {s s' : State} (locks : s'.locks = s.locks)
    (waits : ∀ a l, (s'.agent a).awaitedLock = some l → (s.agent a).awaitedLock = some l) :
    Unblocking s s' := by
  have same : ∀ l, s'.lock l = s.lock l := fun l => by simp [State.lock, locks]
  refine ⟨fun l h => (same l).symm ▸ h, fun l h' held => .inl ⟨h', same l ▸ held, rfl⟩, waits⟩

/-- The locks and the contexts stay as they are. -/
theorem Unblocking.of_same {s s' : State} (locks : s'.locks = s.locks)
    (agents : s'.agents = s.agents) : Unblocking s s' :=
  .of_locks_eq locks fun a l h => by simpa [State.agent, agents] using h

/-- No lock has a holder, a lawful lock stays lawful, and nobody waits. -/
theorem Unblocking.of_all_free {s s' : State}
    (lawful : ∀ l, (s.lock l).lawful = true → (s'.lock l).lawful = true)
    (free : ∀ l, (s'.lock l).hold = none) (idle : ∀ a, (s'.agent a).awaitedLock = none) :
    Unblocking s s' where
  lawful := lawful
  holder l h' held := by simp [free l] at held
  waits a l h := by simp [idle a] at h

/-- A list of entries worked through one by one. -/
theorem Unblocking.foldl {β : Type} {f : State → β → State} (each : ∀ s b, Unblocking s (f s b))
    (entries : List β) (s : State) : Unblocking s (entries.foldl f s) := by
  induction entries generalizing s with
  | nil => exact .refl s
  | cons b rest ih => exact (each s b).trans (ih (f s b))

variable (s : State)

/-! ### Updates of one context -/

theorem unblocking_setAgent (a : Agent) (c : AgentCtx)
    (waits : c.awaitedLock = none ∨ c.awaitedLock = (s.agent a).awaitedLock) :
    Unblocking s (s.setAgent a c) := by
  refine .of_locks_eq rfl fun x l h => ?_
  rw [setAgent_agent] at h
  split at h
  · next same =>
    subst same
    rcases waits with idle | same
    · simp [idle] at h
    · exact same ▸ h
  · exact h

theorem unblocking_setResult (a : Agent) (r : Result) : Unblocking s (s.setResult a r) :=
  unblocking_setAgent s a _ (.inr rfl)

theorem unblocking_refuse (t : Agent) (c : ResCode) : Unblocking s (s.refuse t c) :=
  unblocking_setResult s t _

theorem unblocking_done (t : Agent) (v : Word) : Unblocking s (s.done t v) :=
  unblocking_setResult s t _

theorem unblocking_setNotice (a : Agent) (n : Notice) : Unblocking s (s.setNotice a n) :=
  unblocking_setAgent s a _ (.inr rfl)

theorem unblocking_endWait (a : Agent) (r : Result) : Unblocking s (s.endWait a r) :=
  unblocking_setAgent s a _ (.inl rfl)

theorem unblocking_deliver (a : Agent) (d : Stored) : Unblocking s (s.deliver a d) :=
  unblocking_setAgent s a _ (.inr rfl)

theorem unblocking_setStaging (t : Agent) (g : Staging) : Unblocking s (s.setStaging t g) :=
  unblocking_setAgent s t _ (.inr rfl)

theorem unblocking_recordViolation (t : Agent) (e : ViolationEvent) :
    Unblocking s (s.recordViolation t e) := by
  cases full : s.sup.capture with
  | none =>
    rw [recordViolation_empty s t e full]
    exact .after (unblocking_setNotice _ _ _) (.of_same rfl rfl)
  | some c =>
    rw [recordViolation_full s t e full]
    exact .of_same rfl rfl

theorem unblocking_deny (t : Agent) (c : AgentCmd) (object : Nat) :
    Unblocking s (s.deny t c object) :=
  .after (unblocking_recordViolation _ t _) (unblocking_refuse s t .denied)

theorem unblocking_supResult (c : ResCode) : Unblocking s (s.supResult c) :=
  .of_same rfl rfl

theorem unblocking_reckonStoreEmpty (before : State) :
    Unblocking s (reckonStoreEmpty before s) := by
  unfold reckonStoreEmpty
  split
  · exact unblocking_setNotice s _ _
  · exact .refl s

theorem unblocking_addJob (j : Job) : Unblocking s (s.addJob j) :=
  .of_same rfl rfl

theorem unblocking_endJob : Unblocking s s.endJob :=
  .after (unblocking_setNotice _ _ _) (.of_same rfl rfl)

/-! ### Updates of one lock -/

/-- A lock keeps its holder or loses it, and stays lawful. -/
theorem unblocking_setLock (l : LockId) (k : Lock)
    (lawful : (s.lock l).lawful = true → k.lawful = true)
    (holder : ∀ h' ∈ k.hold, ∃ h ∈ (s.lock l).hold, h.holder = h'.holder) :
    Unblocking s (s.setLock l k) where
  lawful x h := by
    rw [setLock_lock]
    split
    · next same => exact lawful (same ▸ h)
    · exact h
  holder x h' held := by
    rw [setLock_lock] at held
    split at held
    · next same => exact .inl (same ▸ holder h' held)
    · exact .inl ⟨h', held, rfl⟩
  waits _ _ h := h

/-- A HELD lock gets another depth or another lease. -/
theorem unblocking_rehold {l : LockId} {h : Hold} (h' : Hold) (held : (s.lock l).hold = some h)
    (holder : h'.holder = h.holder)
    (depth : 1 ≤ h.depth → h.depth ≤ 15 → 1 ≤ h'.depth ∧ h'.depth ≤ 15)
    (fits : LeaseFits (s.lock l).leaseLength h.lease → LeaseFits (s.lock l).leaseLength h'.lease) :
    Unblocking s (s.setLock l { s.lock l with hold := some h' }) := by
  refine unblocking_setLock s l _ (fun lawful => ?_) ?_
  · obtain ⟨low, high, -, -⟩ := (Lock.lawful_iff_of_held held).mp lawful
    obtain ⟨low', high'⟩ := depth low high
    exact Lock.lawful_rehold h' held lawful low' high' fits
  · rintro _ ⟨⟩
    exact ⟨h, held, holder.symm⟩

/-- A lock goes to an agent that is left waiting for no lock. -/
theorem unblocking_grant (l : LockId) (a : Agent) (waiters : List Agent) (c : AgentCtx)
    (idle : c.awaitedLock = none) :
    Unblocking s
      ((s.setLock l { (s.lock l).grantTo a with waiters := waiters }).setAgent a c) where
  lawful x h := by
    rw [setAgent_lock, setLock_lock]
    split
    · exact Lock.grantTo_lawful _ a waiters
    · exact h
  holder x h' held := by
    rw [setAgent_lock, setLock_lock] at held
    split at held
    · cases held
      exact .inr (by simpa using idle)
    · exact .inl ⟨h', held, rfl⟩
  waits x m h := by
    rw [setAgent_agent] at h
    split at h
    · simp [idle] at h
    · exact h

/-- The lock passes to its head waiter, or becomes FREE (R15, R17, R20). -/
theorem unblocking_passLock (l : LockId) (lost : Bool) : Unblocking s (passLock s l lost) := by
  cases queue : (s.lock l).waiters with
  | nil =>
    rw [passLock_nobody s l lost queue]
    exact unblocking_setLock s l _ (fun _ => (Lock.lawful_iff_of_free rfl).mpr queue) (by simp)
  | cons w rest =>
    rw [passLock_head s l lost queue]
    exact unblocking_grant s l w rest _ rfl

theorem unblocking_leaveWaitList (a : Agent) : Unblocking s (s.leaveWaitList a) := by
  unfold State.leaveWaitList
  split
  · split
    · exact unblocking_setLock s _ _ (Lock.lawful_filter_waiters _) fun h held => ⟨h, held, rfl⟩
    · exact .of_same rfl rfl
    · exact .of_same rfl rfl
  · exact .refl s

/-! ### The commands of the Lock Table other than ACQUIRE -/

theorem unblocking_release (t : Agent) (l : LockId) : Unblocking s (release s t l) := by
  unfold release
  split
  · exact unblocking_refuse s t _
  · next h held =>
    split
    · exact unblocking_refuse s t _
    · split
      · next nested =>
        exact .after (unblocking_done _ t _)
          (unblocking_rehold s _ held rfl
            (fun _ high => ⟨Nat.le_sub_one_of_lt nested, (Nat.sub_le _ 1).trans high⟩) id)
      · exact .after (unblocking_done _ t _) (unblocking_passLock s l false)

theorem unblocking_renew (t : Agent) (l : LockId) : Unblocking s (renew s t l) := by
  unfold renew
  split
  · exact unblocking_refuse s t _
  · next h held =>
    split
    · exact unblocking_refuse s t _
    · exact .after (unblocking_done _ t _)
        (unblocking_rehold s _ held rfl (fun low high => ⟨low, high⟩)
          fun _ => Lock.leaseStart_fits _)

theorem unblocking_lockConfig (l : LockId) : Unblocking s (lockConfig s l) := by
  unfold lockConfig
  split
  · exact unblocking_supResult s _
  · next free =>
    have free : (s.lock l).hold = none := by simpa using free
    refine .after (unblocking_supResult _ _)
      (unblocking_setLock s l _ (fun lawful => ?_) fun h held => ⟨h, held, rfl⟩)
    exact (Lock.lawful_iff_of_free (by exact free)).mpr ((Lock.lawful_iff_of_free free).mp lawful)

/-! ### The Agent Ports -/

/-- A write to CMD whose owner is unblocking. -/
theorem unblocking_acceptCommand (t : Agent) (c : Option AgentCmd) {owner : State → State}
    (answer : Unblocking s (owner s)) : Unblocking s (acceptCommand s t c owner) := by
  rcases acceptCommand_cases s t c owner with ⟨code, refused⟩ | ⟨-, accepted⟩
  · exact refused ▸ unblocking_refuse s t code
  · exact accepted ▸ answer

theorem unblocking_withLock (t : Agent) {f : LockId → State} (each : ∀ l, Unblocking s (f l)) :
    Unblocking s (withLock s t f) := by
  unfold withLock
  split
  · exact each _
  · exact unblocking_refuse s t _

theorem unblocking_withQueue (t : Agent) {f : QueueId → State} (each : ∀ q, Unblocking s (f q)) :
    Unblocking s (withQueue s t f) := by
  unfold withQueue
  split
  · exact each _
  · exact unblocking_refuse s t _

theorem unblocking_withSupObject (n : Nat) {f : Fin n → State} (each : ∀ x, Unblocking s (f x)) :
    Unblocking s (withSupObject s n f) := by
  unfold withSupObject
  split
  · exact each _
  · exact unblocking_supResult s _

theorem unblocking_attach (t : Agent) : Unblocking s (attach s t) := by
  unfold attach
  split
  · split
    · exact unblocking_setAgent s t _ (.inl rfl)
    · exact unblocking_deny s t _ _
  · exact unblocking_done s t _

theorem unblocking_dropBindings (a : Agent) : Unblocking s (s.dropBindings a) :=
  .of_same rfl rfl

theorem unblocking_detach (t : Agent) : Unblocking s (detach s t) := by
  unfold detach
  split
  · exact unblocking_refuse s t _
  · exact .after (unblocking_done _ t _)
      (.after (unblocking_setAgent _ t _ (.inl rfl)) (unblocking_dropBindings s t))

theorem unblocking_cancel (t : Agent) : Unblocking s (cancel s t) := by
  unfold cancel
  split
  · exact .after (unblocking_setAgent _ t _ (.inl rfl)) (unblocking_leaveWaitList s t)
  · exact unblocking_refuse s t _

/-! ### Messages -/

theorem unblocking_handOff (q : QueueId) (m : Message) (r : Receiver) :
    Unblocking s (s.handOff q m r) :=
  .after (unblocking_endWait _ r.agent _)
    (.after (unblocking_deliver _ r.agent _) (.of_same rfl rfl))

theorem unblocking_admitMessage (q : QueueId) (m : Message) :
    Unblocking s (s.admitMessage q m) :=
  .of_locks_eq (admit_frame s q m).1 fun a l h => by
    rw [admit_agent] at h
    exact h

theorem unblocking_completeSender (a : Agent) (seq : Word) :
    Unblocking s (s.completeSender a seq) :=
  .after (unblocking_endWait _ a _) (.of_same rfl rfl)

theorem unblocking_serveSender (a : Agent) : Unblocking s (serveSender s a) := by
  unfold serveSender
  split
  · split
    · split
      · exact .after (unblocking_completeSender _ a _) (unblocking_handOff s _ _ _)
      · split
        · exact .after (unblocking_completeSender _ a _) (unblocking_admitMessage s _ _)
        · exact .refl s
    · exact .refl s
  · exact .refl s

theorem unblocking_admissionPass : Unblocking s (admissionPass s) :=
  .foldl unblocking_serveSender _ s

theorem unblocking_sendBlocked (t : Agent) (q : QueueId) (mode : Mode) (m : Message) :
    Unblocking s (sendBlocked s t q mode m) := by
  unfold sendBlocked
  split
  · exact unblocking_refuse s t _
  · split
    · exact unblocking_refuse s t _
    · exact .after (unblocking_setAgent _ t _ (.inl rfl)) (.of_same rfl rfl)

theorem unblocking_sendOffer (t : Agent) (q : QueueId) (mode : Mode) (m : Message) :
    Unblocking s (sendOffer s t q mode m) := by
  unfold sendOffer
  split
  · exact .after (unblocking_done _ t _) (unblocking_handOff s q m _)
  · split
    · exact .after (unblocking_done _ t _) (unblocking_admitMessage s q m)
    · exact unblocking_sendBlocked s t q mode m

theorem unblocking_send (t : Agent) (q : QueueId) : Unblocking s (send s t q) := by
  unfold send
  split
  · exact unblocking_refuse s t _
  · split
    · exact unblocking_refuse s t _
    · split
      · exact unblocking_deny s t _ _
      · split
        · exact unblocking_refuse s t _
        · exact unblocking_refuse s t _
        · exact .after (unblocking_reckonStoreEmpty _ s) (unblocking_sendOffer s t q _ _)

theorem unblocking_takeMessage (t : Agent) (q : QueueId) (p : Stored → Bool) (d : Stored) :
    Unblocking s (takeMessage s t q p d) :=
  .after (unblocking_setResult _ t _) (.after (unblocking_deliver _ t d) (.of_same rfl rfl))

theorem unblocking_takeFromSender (t : Agent) (q : QueueId) (a : Agent) (m : Message) :
    Unblocking s (takeFromSender s t q a m) :=
  .after (unblocking_setResult _ t _)
    (.after (unblocking_deliver _ t _)
      (.after (unblocking_completeSender _ a _) (.of_same rfl rfl)))

theorem unblocking_receiveBlocked (t : Agent) (q : QueueId) (mode : Mode) (label mask : Word) :
    Unblocking s (receiveBlocked s t q mode label mask) := by
  unfold receiveBlocked
  split
  · exact unblocking_refuse s t _
  · split
    · exact unblocking_refuse s t _
    · exact .after (unblocking_setAgent _ t _ (.inl rfl)) (.of_same rfl rfl)

theorem unblocking_receiveSearch (t : Agent) (q : QueueId) (mode : Mode) (label mask : Word) :
    Unblocking s (receiveSearch s t q mode label mask) := by
  unfold receiveSearch
  split
  · exact .after (unblocking_admissionPass _) (unblocking_takeMessage s t q _ _)
  · split
    · exact unblocking_takeFromSender s t q _ _
    · exact unblocking_receiveBlocked s t q mode label mask

theorem unblocking_receive (t : Agent) (q : QueueId) : Unblocking s (receive s t q) := by
  unfold receive
  split
  · exact unblocking_refuse s t _
  · split
    · exact unblocking_deny s t _ _
    · split
      · exact unblocking_deny s t _ _
      · split
        · exact unblocking_refuse s t _
        · exact unblocking_refuse s t _
        · exact .after (unblocking_reckonStoreEmpty _ s) (unblocking_receiveSearch s t q _ _ _)

/-! ### The Queue Table's commands -/

theorem unblocking_endWaiters (q : QueueId) (c : ResCode) : Unblocking s (endWaiters s q c) :=
  .after (.foldl (fun s a => unblocking_endWait s a _) _ _) (.of_same rfl rfl)

theorem unblocking_queueOpen (q : QueueId) : Unblocking s (queueOpen s q) := by
  unfold queueOpen
  split
  · exact unblocking_supResult s _
  · dsimp only
    split
    · exact unblocking_supResult s _
    · split
      · exact unblocking_supResult s _
      · exact .after (unblocking_reckonStoreEmpty _ s) (.of_same rfl rfl)

theorem unblocking_startPurge (q : QueueId) (lim : Limits) (closeAfter : Bool) :
    Unblocking s (startPurge s q lim closeAfter) :=
  .after (unblocking_addJob _ _) (.of_same rfl rfl)

theorem unblocking_closeOpened (q : QueueId) (lim : Limits) :
    Unblocking s (closeOpened s q lim) := by
  unfold closeOpened
  split
  · exact .after (unblocking_admissionPass _) (.of_same rfl rfl)
  · exact unblocking_startPurge s q lim true

theorem unblocking_queueClose (q : QueueId) : Unblocking s (queueClose s q) := by
  unfold queueClose
  split
  · exact unblocking_supResult s _
  · exact .of_same rfl rfl
  · exact .after (unblocking_reckonStoreEmpty _ s)
      (.after (unblocking_supResult _ _)
        (.after (unblocking_closeOpened _ q _) (unblocking_endWaiters s q _)))

theorem unblocking_queuePurge (q : QueueId) : Unblocking s (queuePurge s q) := by
  unfold queuePurge
  split
  · exact unblocking_supResult s _
  · exact unblocking_supResult s _
  · split
    · exact .after (unblocking_supResult _ _) (unblocking_endWaiters s q _)
    · exact .after (unblocking_supResult _ _)
        (.after (unblocking_startPurge _ q _ _) (unblocking_endWaiters s q _))

theorem unblocking_bindQueue (t : Agent) (q : QueueId) : Unblocking s (bindQueue s t q) := by
  unfold bindQueue
  split
  · exact unblocking_deny s t _ _
  · split
    · exact unblocking_refuse s t _
    · exact unblocking_refuse s t _
    · split
      · split
        · exact unblocking_done s t _
        · exact unblocking_refuse s t _
      · split
        · exact .after (unblocking_done _ t _) (.of_same rfl rfl)
        · exact unblocking_refuse s t _

theorem unblocking_unbindQueue (t : Agent) (q : QueueId) : Unblocking s (unbindQueue s t q) := by
  unfold unbindQueue
  split
  · exact .after (unblocking_done _ t _) (.of_same rfl rfl)
  · exact unblocking_deny s t _ _

theorem unblocking_setWatch (t : Agent) (k : Fin 4) (x : Option QueueId) :
    Unblocking s (setWatch s t k x) :=
  .after (unblocking_done _ t _) (unblocking_setAgent s t _ (.inr rfl))

theorem unblocking_watchQueue (t : Agent) (q : QueueId) : Unblocking s (watchQueue s t q) := by
  unfold watchQueue
  split
  · exact unblocking_deny s t _ _
  · split
    · exact unblocking_refuse s t _
    · split
      · exact unblocking_refuse s t _
      · exact unblocking_setWatch s t _ _

theorem unblocking_unwatchQueue (t : Agent) (q : QueueId) :
    Unblocking s (unwatchQueue s t q) := by
  unfold unwatchQueue
  split
  · exact unblocking_refuse s t _
  · exact unblocking_setWatch s t _ _

/-! ### The Maintenance Engine -/

theorem unblocking_acceptRetire (a : Agent) : Unblocking s (acceptRetire s a) :=
  .after (unblocking_addJob _ _)
    (.after (unblocking_setAgent _ a _ (.inl rfl)) (unblocking_leaveWaitList s a))

theorem unblocking_retire (a : Agent) : Unblocking s (retire s a) := by
  unfold retire
  split
  · exact unblocking_supResult s _
  · exact unblocking_supResult s _
  · exact .after (unblocking_supResult _ _) (unblocking_acceptRetire s a)
  · exact .after (unblocking_supResult _ _) (unblocking_acceptRetire s a)

theorem unblocking_setEngine (e : EngineState) : Unblocking s (s.setEngine e) :=
  .of_same rfl rfl

theorem unblocking_lockSweepStep : Unblocking s (lockSweepStep s) := by
  unfold lockSweepStep
  split
  · next r c _ =>
    have sweep : Unblocking s
        (if (s.lock c).hold.any (fun h => h.holder == r) then loseLock s c else s) := by
      split
      · exact unblocking_passLock s c true
      · exact .refl s
    dsimp only
    split
    · exact .after (unblocking_setEngine _ _) sweep
    · exact .after (unblocking_setEngine _ _) sweep
  · exact .refl s

theorem unblocking_endRetirement (r : Agent) : Unblocking s (endRetirement s r) :=
  .after (unblocking_endJob _) (unblocking_setAgent s r _ (.inl rfl))

theorem unblocking_queueSweepStep : Unblocking s (queueSweepStep s) := by
  unfold queueSweepStep
  split
  · next r c _ =>
    have sweep : Unblocking s
        (if (s.queue c).bound = some r then s.setQueue c { s.queue c with bound := none }
          else s) := by
      split
      · exact .of_same rfl rfl
      · exact .refl s
    dsimp only
    split
    · exact .after (unblocking_setEngine _ _) sweep
    · exact .after (unblocking_endRetirement _ r) sweep
  · exact .refl s

theorem unblocking_discardHead (q : QueueId) : Unblocking s (discardHead s q) := by
  unfold discardHead
  split
  · exact .refl s
  · exact .of_same rfl rfl

theorem unblocking_endPurge (q : QueueId) (lim : Limits) (closeAfter : Bool) :
    Unblocking s (endPurge s q lim closeAfter) := by
  unfold endPurge
  split
  · exact .of_same rfl rfl
  · exact .of_same rfl rfl

theorem unblocking_purgeQueue (q : QueueId) (lim : Limits) (closeAfter : Bool) :
    Unblocking s (purgeQueue s q lim closeAfter) := by
  unfold purgeQueue
  dsimp only
  split
  · exact .after (unblocking_endJob _)
      (.after (unblocking_admissionPass _)
        (.after (unblocking_endPurge _ q lim closeAfter) (unblocking_discardHead s q)))
  · exact .after (unblocking_admissionPass _) (unblocking_discardHead s q)

theorem unblocking_purgeStep : Unblocking s (purgeStep s) := by
  unfold purgeStep
  split
  · split
    · exact .after (unblocking_reckonStoreEmpty _ s) (unblocking_purgeQueue s _ _ _)
    · exact .refl s
  · exact .refl s

/-! ### Ticks -/

theorem unblocking_timeEvent (f : TimeBase → TimeBase) : Unblocking s (timeEvent s f) := by
  unfold timeEvent
  split
  · exact .refl s
  · exact .of_same rfl rfl

theorem unblocking_tickLock (l : LockId) : Unblocking s (tickLock s l) := by
  unfold tickLock
  split
  · exact .refl s
  · next h held =>
    split
    · exact .refl s
    · next r lease =>
      split
      · next more =>
        exact unblocking_rehold s _ held rfl (fun low high => ⟨low, high⟩)
          fun fits => (lease ▸ fits : LeaseFits _ (some r)).lower more
      · exact .after (unblocking_setNotice _ _ _) (unblocking_passLock s l true)

theorem unblocking_tickAllLocks : Unblocking s (tickAllLocks s) := by
  unfold tickAllLocks
  exact .foldl unblocking_tickLock _ s

theorem unblocking_lockTableTick : Unblocking s (lockTableTick s) := by
  unfold lockTableTick
  split
  · exact .refl s
  · exact .after (unblocking_tickAllLocks _) (.of_same rfl rfl)

theorem unblocking_tickPort (a : Agent) : Unblocking s (tickPort s a) := by
  unfold tickPort
  split
  · next w waiting =>
    split
    · exact .refl s
    · split
      · exact unblocking_setAgent s a _ (.inr (by simp [AgentCtx.awaitedLock, waiting]))
      · exact .after (unblocking_endWait _ a _) (unblocking_leaveWaitList s a)
  · exact .refl s

theorem unblocking_tickAllPorts : Unblocking s (tickAllPorts s) := by
  unfold tickAllPorts
  exact .foldl unblocking_tickPort _ s

theorem unblocking_agentPortsTick : Unblocking s (agentPortsTick s) := by
  unfold agentPortsTick
  split
  · exact .refl s
  · exact .after (unblocking_tickAllPorts _) (.of_same rfl rfl)

/-! ### CLEAR and the pins -/

theorem unblocking_clearPart : Unblocking s (clearPart s) := by
  refine .of_all_free (fun l _ => ?_) (fun l => ?_) (fun a => ?_)
  · rw [clearPart_lock]
    exact (Lock.lawful_iff_of_free rfl).mpr rfl
  · rw [clearPart_lock]
    rfl
  · rw [clearPart_agent]
    rfl

theorem unblocking_enterReset : Unblocking s (enterReset s) := by
  refine .of_all_free (fun l _ => ?_) (fun l => ?_) (fun a => ?_)
  · rw [enterReset_lock]
    exact (Lock.lawful_iff_of_free rfl).mpr rfl
  · rw [enterReset_lock]
    rfl
  · rw [enterReset_agent]
    rfl

theorem unblocking_releaseReset (straps : Agent) : Unblocking s (releaseReset s straps) := by
  unfold releaseReset
  split
  · exact .of_same rfl rfl
  · exact .refl s

end Sys2Proof.Machine

/-! Chains of lock holders (R13, R14): what they are step by step, that the walk of 16 steps follows each one to its end, and that the events keep them without a circle. -/

namespace Sys2Proof.Machine

variable {s s' : State}

theorem waitsOn_eq_some {a b : Agent} :
    s.waitsOn a = some b ↔
      ∃ l h, (s.agent a).awaitedLock = some l ∧ (s.lock l).hold = some h ∧ h.holder = b := by
  unfold State.waitsOn
  cases awaited : (s.agent a).awaitedLock with
  | none => simp
  | some l => simp

theorem waitsOn_of_awaits {a : Agent} {l : LockId} (awaits : (s.agent a).awaitedLock = some l) :
    s.waitsOn a = (s.lock l).hold.map (·.holder) := by
  simp [State.waitsOn, awaits]

theorem waitsOn_of_idle {a : Agent} (idle : (s.agent a).awaitedLock = none) :
    s.waitsOn a = none := by
  simp [State.waitsOn, idle]

theorem LeadsTo.trans {a b c : Agent} (ab : LeadsTo s a b) (bc : LeadsTo s b c) :
    LeadsTo s a c := by
  induction ab with
  | here a => exact bc
  | next a x b edge _ ih => exact .next a x c edge (ih bc)

/-- A chain from an agent that waits on nobody is that agent alone. -/
theorem LeadsTo.eq_of_idle {a b : Agent} (chain : LeadsTo s a b) (idle : s.waitsOn a = none) :
    a = b := by
  cases chain with
  | here => rfl
  | next _ x _ edge _ => simp [idle] at edge

/-- A chain from an agent who waits goes through the one whom it waits on, or ends at once. -/
theorem leadsTo_iff_of_waitsOn {a b c : Agent} (edge : s.waitsOn a = some b) :
    LeadsTo s a c ↔ a = c ∨ LeadsTo s b c := by
  constructor
  · intro chain
    cases chain with
    | here => exact .inl rfl
    | next _ x _ edge' rest =>
      obtain rfl : b = x := Option.some.inj (edge.symm.trans edge')
      exact .inr rest
  · rintro (rfl | rest)
    · exact .here a
    · exact .next a b c edge rest

/-! ### The walk of the deadlock check -/

/-- The agent that the chain of holders reaches from `a` in `k` steps, if it is that long. -/
def State.chainAt (s : State) : (k : Nat) → (a : Agent) → Option Agent
  | 0, a => some a
  | k + 1, a => (s.waitsOn a).bind (s.chainAt k)

theorem chainAt_add (i j : Nat) (a : Agent) :
    s.chainAt (i + j) a = (s.chainAt i a).bind (s.chainAt j) := by
  induction i generalizing a with
  | zero => simp [State.chainAt]
  | succ i ih =>
    rw [Nat.succ_add]
    cases edge : s.waitsOn a with
    | none => simp [State.chainAt, edge]
    | some b => simp [State.chainAt, edge, ih]

theorem leadsTo_iff_chainAt {a b : Agent} : LeadsTo s a b ↔ ∃ k, s.chainAt k a = some b := by
  constructor
  · intro chain
    induction chain with
    | here a => exact ⟨0, rfl⟩
    | next a x b edge _ ih =>
      obtain ⟨k, reached⟩ := ih
      exact ⟨k + 1, by simp [State.chainAt, edge, reached]⟩
  · rintro ⟨k, reached⟩
    induction k generalizing a with
    | zero =>
      obtain rfl : a = b := Option.some.inj reached
      exact .here a
    | succ k ih =>
      obtain ⟨x, edge, rest⟩ := Option.bind_eq_some_iff.mp reached
      exact .next a x b edge (ih rest)

/-- There are 16 agents, so a chain that reaches an agent reaches it within 15 steps. -/
theorem LeadsTo.exists_short {a b : Agent} (chain : LeadsTo s a b) :
    ∃ k < 16, s.chainAt k a = some b := by
  classical
  have reaches : ∃ k, s.chainAt k a = some b := leadsTo_iff_chainAt.mp chain
  refine ⟨Nat.find reaches, ?_, Nat.find_spec reaches⟩
  by_contra long
  -- a chain of 17 agents has one of them twice, and leaving out what lies between shortens it
  have isSome : ∀ i : Fin 17, (s.chainAt i a).isSome := fun i => by
    have whole := Nat.find_spec reaches
    rw [show Nat.find reaches = i + (Nat.find reaches - i) by omega, chainAt_add] at whole
    obtain ⟨x, at_i, -⟩ := Option.bind_eq_some_iff.mp whole
    simp [at_i]
  obtain ⟨i, j, differ, same⟩ : ∃ i j : Fin 17, i ≠ j ∧
      (s.chainAt i a).get (isSome i) = (s.chainAt j a).get (isSome j) :=
    Fintype.exists_ne_map_eq_of_card_lt
      (fun i : Fin 17 => (s.chainAt i a).get (isSome i)) (by simp)
  replace same : s.chainAt i a = s.chainAt j a := Option.get_inj.mp same
  wlog order : i < j generalizing i j
  · exact this j i differ.symm same.symm (by omega)
  have shorter : s.chainAt (i + (Nat.find reaches - j)) a = some b := by
    have whole : j + (Nat.find reaches - j) = Nat.find reaches := by omega
    rw [chainAt_add, same, ← chainAt_add, whole]
    exact Nat.find_spec reaches
  exact Nat.find_min reaches (by omega) shorter

theorem walkReaches_succ (t : Agent) (n : Nat) (a : Agent) :
    walkReaches s t (n + 1) a = true ↔
      a = t ∨ ∃ b, s.waitsOn a = some b ∧ walkReaches s t n b = true := by
  rw [walkReaches]
  split
  · next same => simp [same]
  · next differ =>
    cases awaited : (s.agent a).awaitedLock with
    | none => simp [differ, waitsOn_of_idle awaited]
    | some l => cases held : (s.lock l).hold <;> simp [differ, waitsOn_of_awaits awaited, held]

/-- The walk sees the agents of the chain that are fewer than its steps away. -/
theorem walkReaches_iff_chainAt (t : Agent) (n : Nat) (a : Agent) :
    walkReaches s t n a = true ↔ ∃ k < n, s.chainAt k a = some t := by
  induction n generalizing a with
  | zero => simp [walkReaches]
  | succ n ih =>
    rw [walkReaches_succ]
    constructor
    · rintro (rfl | ⟨b, edge, walked⟩)
      · exact ⟨0, Nat.succ_pos n, rfl⟩
      · obtain ⟨k, less, reached⟩ := (ih b).mp walked
        exact ⟨k + 1, Nat.succ_lt_succ less, by simp [State.chainAt, edge, reached]⟩
    · rintro ⟨k | k, less, reached⟩
      · exact .inl (Option.some.inj reached)
      · obtain ⟨b, edge, rest⟩ := Option.bind_eq_some_iff.mp reached
        exact .inr ⟨b, edge, (ih b).mpr ⟨k, Nat.lt_of_succ_lt_succ less, rest⟩⟩

/-- The deadlock check finds a chain back to the caller exactly when there is one (R13). -/
theorem walkReaches_iff_leadsTo (t a : Agent) :
    walkReaches s t Config.walkSteps a = true ↔ LeadsTo s a t := by
  rw [walkReaches_iff_chainAt]
  constructor
  · rintro ⟨k, -, reached⟩
    exact leadsTo_iff_chainAt.mpr ⟨k, reached⟩
  · exact LeadsTo.exists_short

/-! ### Circles -/

/-- Who waits on whom after an unblocking event: as before, or on an agent that waits on nobody. -/
theorem Unblocking.waitsOn_cases (u : Unblocking s s') {a b : Agent}
    (edge : s'.waitsOn a = some b) : s.waitsOn a = some b ∨ s'.waitsOn b = none := by
  obtain ⟨l, h', awaits, held', rfl⟩ := waitsOn_eq_some.mp edge
  rcases u.holder l h' held' with ⟨h, held, same⟩ | idle
  · exact .inl (waitsOn_eq_some.mpr ⟨l, h, u.waits a l awaits, held, same⟩)
  · exact .inr (waitsOn_of_idle idle)

/-- After an unblocking event, a chain to an agent who waits is a chain from before. -/
theorem Unblocking.leadsTo_of_leadsTo (u : Unblocking s s') {a b c : Agent}
    (chain : LeadsTo s' a b) (waits : s'.waitsOn b = some c) : LeadsTo s a b := by
  induction chain with
  | here a => exact .here a
  | next a x b edge rest ih =>
    rcases u.waitsOn_cases edge with before | sink
    · exact .next a x b before (ih waits)
    · rw [rest.eq_of_idle sink, waits] at sink
      cases sink

theorem Unblocking.noCircle (u : Unblocking s s') (free : NoCircle s) : NoCircle s' := by
  intro a b edge chain
  rcases u.waitsOn_cases edge with before | sink
  · exact free a b before (u.leadsTo_of_leadsTo chain edge)
  · obtain rfl := chain.eq_of_idle sink
    rw [edge] at sink
    cases sink

/-! ### The ACQUIRE that joins a waiter list -/

/-- Agent `t` starts to wait for lock `l`, whose holder has no chain to `t`; no lock changes hands. -/
structure JoinsWaiters (s s' : State) (t : Agent) (l : LockId) (h : Hold) : Prop where
  lawful : ∀ x, (s.lock x).lawful = true → (s'.lock x).lawful = true
  held : (s.lock l).hold = some h
  noChain : ¬ LeadsTo s h.holder t
  holds : ∀ x, (s'.lock x).hold = (s.lock x).hold
  waits : (s'.agent t).awaitedLock = some l
  others : ∀ a, a ≠ t → (s'.agent a).awaitedLock = (s.agent a).awaitedLock

namespace JoinsWaiters

variable {t : Agent} {l : LockId} {h : Hold}

theorem waitsOn_self (j : JoinsWaiters s s' t l h) : s'.waitsOn t = some h.holder := by
  rw [waitsOn_of_awaits j.waits, j.holds, j.held]
  rfl

theorem waitsOn_other (j : JoinsWaiters s s' t l h) {a : Agent} (other : a ≠ t) :
    s'.waitsOn a = s.waitsOn a := by
  simp only [State.waitsOn, j.others a other, j.holds]

/-- A chain after the event is one from before, or goes through `t` and on from the holder. -/
theorem leadsTo_cases (j : JoinsWaiters s s' t l h) {a b : Agent} (chain : LeadsTo s' a b) :
    LeadsTo s a b ∨ (LeadsTo s a t ∧ LeadsTo s h.holder b) := by
  induction chain with
  | here a => exact .inl (.here a)
  | next a x b edge _ ih =>
    by_cases self : a = t
    · subst self
      obtain rfl : h.holder = x := Option.some.inj (j.waitsOn_self.symm.trans edge)
      rcases ih with before | ⟨back, -⟩
      · exact .inr ⟨.here a, before⟩
      · exact absurd back j.noChain
    · rw [j.waitsOn_other self] at edge
      rcases ih with before | ⟨toSelf, fromHolder⟩
      · exact .inl (.next a x b edge before)
      · exact .inr ⟨.next a x t edge toSelf, fromHolder⟩

theorem noCircle (j : JoinsWaiters s s' t l h) (free : NoCircle s) : NoCircle s' := by
  intro a b edge chain
  by_cases self : a = t
  · subst self
    obtain rfl : h.holder = b := Option.some.inj (j.waitsOn_self.symm.trans edge)
    rcases j.leadsTo_cases chain with back | ⟨back, -⟩
    · exact j.noChain back
    · exact j.noChain back
  · rw [j.waitsOn_other self] at edge
    rcases j.leadsTo_cases chain with before | ⟨toSelf, fromHolder⟩
    · exact free a b edge before
    · exact j.noChain (fromHolder.trans (.next a b t edge toSelf))

end JoinsWaiters

end Sys2Proof.Machine

/-! Every command is unblocking, or is an ACQUIRE that joins a waiter list: the two invariants of the locks follow. -/

namespace Sys2Proof.Machine

/-- What any command can do to the locks and to the waits for them. -/
inductive LockEvent (s s' : State) : Prop
  | unblocking (u : Unblocking s s')
  | joins (t : Agent) (l : LockId) (h : Hold) (j : JoinsWaiters s s' t l h)

theorem LockEvent.locksLawful {s s' : State} (event : LockEvent s s') (lawful : LocksLawful s) :
    LocksLawful s' := by
  cases event with
  | unblocking u => exact fun l => u.lawful l (lawful l)
  | joins t l h j => exact fun x => j.lawful x (lawful x)

theorem LockEvent.noCircle {s s' : State} (event : LockEvent s s') (free : NoCircle s) :
    NoCircle s' := by
  cases event with
  | unblocking u => exact u.noCircle free
  | joins t l h j => exact j.noCircle free

/-- The answer of a write cycle leaves the locks and the contexts. -/
theorem LockEvent.answered {s s' : State} (event : LockEvent s s') :
    LockEvent s s'.answerWrite := by
  cases event with
  | unblocking u => exact .unblocking (u.trans (.of_same rfl rfl))
  | joins t l h j =>
    exact .joins t l h ⟨j.lawful, j.held, j.noChain, j.holds, j.waits, j.others⟩

variable (s : State)

/-! ### ACQUIRE -/

theorem unblocking_acquireNested (t : Agent) (l : LockId) {h : Hold}
    (held : (s.lock l).hold = some h) : Unblocking s (acquireNested s t l h) := by
  unfold acquireNested
  split
  · exact unblocking_refuse s t _
  · next room =>
    exact .after (unblocking_done _ t _)
      (unblocking_rehold s _ held rfl (fun _ _ => ⟨Nat.succ_pos _, Nat.not_le.mp room⟩)
        fun _ => Lock.leaseStart_fits _)

theorem unblocking_acquireFree (t : Agent) (l : LockId)
    (idle : (s.agent t).awaitedLock = none) : Unblocking s (acquireFree s t l) :=
  unblocking_grant s l t (s.lock l).waiters _ idle

/-- The wait begins only where the deadlock check has found no chain (R12, R13). -/
theorem lockEvent_acquireWait (t : Agent) (l : LockId) {h : Hold}
    (held : (s.lock l).hold = some h) : LockEvent s (acquireWait s t l h) := by
  unfold acquireWait
  split
  · exact .unblocking (unblocking_refuse s t _)
  · next noChain =>
    split
    · exact .unblocking (unblocking_refuse s t _)
    · refine .joins t l h ⟨fun x lawful => ?_, held, mt (walkReaches_iff_leadsTo t _).mpr noChain,
        fun x => ?_, ?_, fun a other => ?_⟩
      · rw [startWait_eq, setAgent_lock, setLock_lock]
        split
        · next same => exact Lock.lawful_waiters_of_held held _ (same ▸ lawful)
        · exact lawful
      · rw [startWait_eq, setAgent_lock, setLock_lock]
        split
        · next same => rw [same]
        · rfl
      · rw [startWait_eq, setAgent_agent_self]
        rfl
      · rw [startWait_eq, setAgent_agent_ne _ _ _ other, setLock_agent]

theorem lockEvent_acquire (t : Agent) (l : LockId) (idle : (s.agent t).awaitedLock = none) :
    LockEvent s (acquire s t l) := by
  unfold acquire
  split
  · exact .unblocking (unblocking_refuse s t _)
  · split
    · exact .unblocking (unblocking_deny s t _ _)
    · split
      · exact .unblocking (unblocking_acquireFree s t l idle)
      · next h held =>
        split
        · exact .unblocking (unblocking_acquireNested s t l held)
        · split
          · exact .unblocking (unblocking_refuse s t _)
          · exact lockEvent_acquireWait s t l held

theorem lockEvent_acquireCommand (t : Agent) : LockEvent s (acquireCommand s t) := by
  unfold acquireCommand
  rcases acceptCommand_cases s t (some .acquire) fun s => withLock s t (acquire s t) with
    ⟨code, refused⟩ | ⟨passed, accepted⟩
  · exact refused ▸ .unblocking (unblocking_refuse s t code)
  · have attached := attached_of_portCheck (by simp) (by simp) passed
    rw [accepted, withLock]
    split
    · exact lockEvent_acquire s t _ (by simp [AgentCtx.awaitedLock, attached])
    · exact .unblocking (unblocking_refuse s t _)

/-! ### The commands as the bus brings them -/

theorem unblocking_attachCommand (t : Agent) : Unblocking s (attachCommand s t) :=
  unblocking_acceptCommand s t _ (unblocking_attach s t)

theorem unblocking_detachCommand (t : Agent) : Unblocking s (detachCommand s t) :=
  unblocking_acceptCommand s t _ (unblocking_detach s t)

theorem unblocking_cancelCommand (t : Agent) : Unblocking s (cancelCommand s t) :=
  unblocking_acceptCommand s t _ (unblocking_cancel s t)

theorem unblocking_releaseCommand (t : Agent) : Unblocking s (releaseCommand s t) :=
  unblocking_acceptCommand s t _ (unblocking_withLock s t (unblocking_release s t))

theorem unblocking_renewCommand (t : Agent) : Unblocking s (renewCommand s t) :=
  unblocking_acceptCommand s t _ (unblocking_withLock s t (unblocking_renew s t))

theorem unblocking_sendCommand (t : Agent) : Unblocking s (sendCommand s t) :=
  unblocking_acceptCommand s t _ (unblocking_withQueue s t (unblocking_send s t))

theorem unblocking_receiveCommand (t : Agent) : Unblocking s (receiveCommand s t) :=
  unblocking_acceptCommand s t _ (unblocking_withQueue s t (unblocking_receive s t))

theorem unblocking_bindCommand (t : Agent) : Unblocking s (bindCommand s t) :=
  unblocking_acceptCommand s t _ (unblocking_withQueue s t (unblocking_bindQueue s t))

theorem unblocking_unbindCommand (t : Agent) : Unblocking s (unbindCommand s t) :=
  unblocking_acceptCommand s t _ (unblocking_withQueue s t (unblocking_unbindQueue s t))

theorem unblocking_watchCommand (t : Agent) : Unblocking s (watchCommand s t) :=
  unblocking_acceptCommand s t _ (unblocking_withQueue s t (unblocking_watchQueue s t))

theorem unblocking_unwatchCommand (t : Agent) : Unblocking s (unwatchCommand s t) :=
  unblocking_acceptCommand s t _ (unblocking_withQueue s t (unblocking_unwatchQueue s t))

theorem unblocking_lockConfigCommand : Unblocking s (lockConfigCommand s) :=
  unblocking_withSupObject s 64 (unblocking_lockConfig s)

theorem unblocking_queueOpenCommand : Unblocking s (queueOpenCommand s) :=
  unblocking_withSupObject s 32 (unblocking_queueOpen s)

theorem unblocking_queueCloseCommand : Unblocking s (queueCloseCommand s) :=
  unblocking_withSupObject s 32 (unblocking_queueClose s)

theorem unblocking_queuePurgeCommand : Unblocking s (queuePurgeCommand s) :=
  unblocking_withSupObject s 32 (unblocking_queuePurge s)

theorem unblocking_retireCommand : Unblocking s (retireCommand s) :=
  unblocking_withSupObject s 16 (unblocking_retire s)

theorem lockEvent_writeCmd (t : Agent) (code : Word) : LockEvent s (writeCmd s t code) := by
  unfold writeCmd
  split
  · exact .unblocking (unblocking_acceptCommand s t none (.refl s))
  · exact .unblocking (unblocking_attachCommand s t)
  · exact .unblocking (unblocking_detachCommand s t)
  · exact .unblocking (unblocking_cancelCommand s t)
  · exact lockEvent_acquireCommand s t
  · exact .unblocking (unblocking_releaseCommand s t)
  · exact .unblocking (unblocking_renewCommand s t)
  · exact .unblocking (unblocking_sendCommand s t)
  · exact .unblocking (unblocking_receiveCommand s t)
  · exact .unblocking (unblocking_bindCommand s t)
  · exact .unblocking (unblocking_unbindCommand s t)
  · exact .unblocking (unblocking_watchCommand s t)
  · exact .unblocking (unblocking_unwatchCommand s t)

theorem unblocking_writeScmd (code : Word) : Unblocking s (writeScmd s code) := by
  unfold writeScmd
  split
  · exact unblocking_supResult s _
  · exact unblocking_lockConfigCommand s
  · exact unblocking_queueOpenCommand s
  · exact unblocking_queueCloseCommand s
  · exact unblocking_queuePurgeCommand s
  · exact unblocking_retireCommand s
  · exact .of_same rfl rfl
  · exact .of_same rfl rfl
  · exact .of_same rfl rfl
  · exact unblocking_clearPart s

theorem lockEvent_writeAgentReg (t : Agent) (r : AgentReg) (v : Word) :
    LockEvent s (writeAgentReg s t r v) := by
  unfold writeAgentReg
  split
  · exact lockEvent_writeCmd s t v
  · exact .unblocking (unblocking_setAgent s t _ (.inr rfl))
  · exact .unblocking (unblocking_setAgent s t _ (.inr rfl))
  · exact .unblocking (unblocking_setStaging s t _)
  · exact .unblocking (unblocking_setStaging s t _)
  · exact .unblocking (unblocking_setStaging s t _)
  all_goals exact .unblocking (.refl s)

theorem unblocking_writeSupReg (r : SupReg) (v : Word) : Unblocking s (writeSupReg s r v) := by
  unfold writeSupReg
  split
  · exact unblocking_writeScmd s v
  all_goals exact .of_same rfl rfl

theorem lockEvent_busWrite (t : Agent) (off : Offset) (v : Word) :
    LockEvent s (busWrite s t off v) := by
  unfold busWrite
  split
  · split
    · exact .unblocking (unblocking_writeSupReg s _ v)
    · exact .unblocking (unblocking_recordViolation s t _)
  · exact lockEvent_writeAgentReg s t _ v

/-! ### Every command -/

variable {s} {s' : State} {c : Instr}

theorem LockEvent.of_writeCycle {access : State → State} (cycle : exec c s = writeCycle s access)
    (run : exec c s = .next s') (taken : LockEvent s (access s)) : LockEvent s s' := by
  rcases writeCycle_next (cycle.symm.trans run) with rfl | rfl
  · exact .unblocking (.of_same rfl rfl)
  · exact taken.answered

theorem LockEvent.of_unblockingWrite {access : State → State}
    (cycle : exec c s = writeCycle s access) (run : exec c s = .next s')
    (taken : Unblocking s (access s)) : LockEvent s s' :=
  .of_writeCycle cycle run (.unblocking taken)

theorem LockEvent.of_readCycle {value : State → Word} {access : State → State}
    (cycle : exec c s = readCycle s value access) (run : exec c s = .next s')
    (taken : Unblocking s (access s)) : LockEvent s s' := by
  rcases readCycle_next (cycle.symm.trans run) with rfl | rfl
  · exact .unblocking (.of_same rfl rfl)
  · exact .unblocking (taken.trans (.of_same rfl rfl))

theorem LockEvent.of_blockEvent {event : State → State} (block : exec c s = blockEvent s event)
    (run : exec c s = .next s') (taken : Unblocking s (event s)) : LockEvent s s' := by
  rcases blockEvent_next (block.symm.trans run) with rfl | rfl
  · exact .unblocking (.refl s')
  · exact .unblocking taken

/-- A command that changes pins, or the straps, ends in the state that it names. -/
theorem LockEvent.of_pinChange {u : State} (pin : exec c s = .next u) (run : exec c s = .next s')
    (moved : Unblocking s u) : LockEvent s s' :=
  Host.Outcome.next.inj (pin.symm.trans run) ▸ .unblocking moved

theorem unblocking_ite {p : Prop} [Decidable p] {u : State} (h : Unblocking s u) :
    Unblocking s (if p then u else s) := by
  split
  · exact h
  · exact .refl s

/-- Every command is a lock event. -/
theorem exec_lockEvent (run : exec c s = .next s') : LockEvent s s' := by
  cases c with
  | attach t => exact .of_unblockingWrite (exec_attach s t) run (unblocking_attachCommand s t)
  | detach t => exact .of_unblockingWrite (exec_detach s t) run (unblocking_detachCommand s t)
  | cancel t => exact .of_unblockingWrite (exec_cancel s t) run (unblocking_cancelCommand s t)
  | acquire t => exact .of_writeCycle (exec_acquire s t) run (lockEvent_acquireCommand s t)
  | release t => exact .of_unblockingWrite (exec_release s t) run (unblocking_releaseCommand s t)
  | renew t => exact .of_unblockingWrite (exec_renew s t) run (unblocking_renewCommand s t)
  | send t => exact .of_unblockingWrite (exec_send s t) run (unblocking_sendCommand s t)
  | receive t => exact .of_unblockingWrite (exec_receive s t) run (unblocking_receiveCommand s t)
  | bind t => exact .of_unblockingWrite (exec_bind s t) run (unblocking_bindCommand s t)
  | unbind t => exact .of_unblockingWrite (exec_unbind s t) run (unblocking_unbindCommand s t)
  | watch t => exact .of_unblockingWrite (exec_watch s t) run (unblocking_watchCommand s t)
  | unwatch t => exact .of_unblockingWrite (exec_unwatch s t) run (unblocking_unwatchCommand s t)
  | lockConfig => exact .of_unblockingWrite (exec_lockConfig s) run (unblocking_lockConfigCommand s)
  | queueOpen => exact .of_unblockingWrite (exec_queueOpen s) run (unblocking_queueOpenCommand s)
  | queueClose => exact .of_unblockingWrite (exec_queueClose s) run (unblocking_queueCloseCommand s)
  | queuePurge => exact .of_unblockingWrite (exec_queuePurge s) run (unblocking_queuePurgeCommand s)
  | retire => exact .of_unblockingWrite (exec_retire s) run (unblocking_retireCommand s)
  | quiesce => exact .of_unblockingWrite (exec_quiesce s) run (.of_same rfl rfl)
  | resume => exact .of_unblockingWrite (exec_resume s) run (.of_same rfl rfl)
  | ackViolation => exact .of_unblockingWrite (exec_ackViolation s) run (.of_same rfl rfl)
  | clear => exact .of_unblockingWrite (exec_clear s) run (unblocking_clearPart s)
  | noteRead t => exact .of_readCycle (exec_noteRead s t) run (unblocking_setAgent s t _ (.inr rfl))
  | nenWrite t v =>
    exact .of_unblockingWrite (exec_nenWrite s t v) run (unblocking_setAgent s t _ (.inr rfl))
  | tickloRead t =>
    exact .of_readCycle (exec_tickloRead s t) run (unblocking_setAgent s t _ (.inr rfl))
  | tickhiRead t =>
    exact .of_readCycle (exec_tickhiRead s t) run (unblocking_setAgent s t _ (.inr rfl))
  | tickdivWrite v => exact .of_unblockingWrite (exec_tickdivWrite s v) run (.of_same rfl rfl)
  | supervisorPageWriteDenied t off v =>
    exact .of_writeCycle (exec_supervisorPageWriteDenied s t off v) run
      (lockEvent_busWrite s t off v)
  | registerWrite t off v =>
    exact .of_writeCycle (exec_registerWrite s t off v) run (lockEvent_busWrite s t off v)
  | reset => exact .of_pinChange (exec_reset s) run (unblocking_enterReset s)
  | resetRelease straps =>
    exact .of_pinChange (exec_resetRelease s straps) run (unblocking_releaseReset s straps)
  | freezeAssert => exact .of_pinChange (exec_freezeAssert s) run (.of_same rfl rfl)
  | freezeRelease => exact .of_pinChange (exec_freezeRelease s) run (.of_same rfl rfl)
  | tick => exact .of_blockEvent (exec_tick s) run (unblocking_timeEvent s _)
  | refclkPeriodCounted =>
    exact .of_blockEvent (exec_refclkPeriodCounted s) run (unblocking_timeEvent s _)
  | leaseCountdown => exact .of_blockEvent (exec_leaseCountdown s) run (unblocking_lockTableTick s)
  | leaseExpiry l =>
    exact .of_blockEvent (exec_leaseExpiry s l) run (unblocking_ite (unblocking_lockTableTick s))
  | deadlineCountdown =>
    exact .of_blockEvent (exec_deadlineCountdown s) run (unblocking_agentPortsTick s)
  | deadlineExpiry a =>
    exact .of_blockEvent (exec_deadlineExpiry s a) run
      (unblocking_ite (unblocking_agentPortsTick s))
  | lockSweepStep => exact .of_blockEvent (exec_lockSweepStep s) run (unblocking_lockSweepStep s)
  | queueSweepStep => exact .of_blockEvent (exec_queueSweepStep s) run (unblocking_queueSweepStep s)
  | purgeStep => exact .of_blockEvent (exec_purgeStep s) run (unblocking_purgeStep s)
  | unknownAgentCommandCode t code =>
    exact .of_writeCycle (exec_unknownAgentCommandCode s t code) run (lockEvent_writeCmd s t code)
  | unknownSupervisorCommandCode code =>
    exact .of_unblockingWrite (exec_unknownSupervisorCommandCode s code) run
      (unblocking_writeScmd s code)

/-- The chains do not read the queue of commands. -/
theorem NoCircle.dequeue {s : State} (free : NoCircle s) (rest : List Instr) :
    NoCircle { s with pending := rest } :=
  Unblocking.noCircle (s := s) (.of_same rfl rfl) free

/-- Settles O55: every command is a lock event, and lock events keep lawful locks lawful. -/
theorem everyStepKeepsLockLaws : Obligations.EveryStepKeepsLockLaws :=
  fun _ _ lawful run => step_keeps_of_exec (fun _ _ lawful => lawful)
    (fun _ _ _ lawful run => (exec_lockEvent run).locksLawful lawful) lawful run

/-- Settles O56: an unblocking event adds no edge that can lie on a circle, and the ACQUIRE that adds one has found no chain back. -/
theorem everyStepKeepsNoCircle : Obligations.EveryStepKeepsNoCircle :=
  fun _ _ free run => step_keeps_of_exec (fun _ rest free => free.dequeue rest)
    (fun _ _ _ free run => (exec_lockEvent run).noCircle free) free run

end Sys2Proof.Machine

/-! The commands of the Lock Table, case by case (sections 1.3 to 1.5, 1.8), and the statements about them. -/

namespace Sys2Proof.Machine

variable {s : State} {t : Agent} {l : LockId}

/-! ### A command that reaches the Lock Table -/

/-- An ATTACHED agent's ACQUIRE of a lock that there is goes to the Lock Table (R108). -/
theorem exec_acquire_ready (ready : Ready s t) (named : NamesLock s t l) :
    exec (.acquire t) s = .next (acquire s t l).answerWrite := by
  obtain ⟨running, attached⟩ := ready
  rw [exec_acquire, writeCycle_running s _ running, acquireCommand,
    acceptCommand_attached s _ _ attached, withLock_named s _ named]

theorem exec_release_ready (ready : Ready s t) (named : NamesLock s t l) :
    exec (.release t) s = .next (release s t l).answerWrite := by
  obtain ⟨running, attached⟩ := ready
  rw [exec_release, writeCycle_running s _ running, releaseCommand,
    acceptCommand_attached s _ _ attached, withLock_named s _ named]

theorem exec_renew_ready (ready : Ready s t) (named : NamesLock s t l) :
    exec (.renew t) s = .next (renew s t l).answerWrite := by
  obtain ⟨running, attached⟩ := ready
  rw [exec_renew, writeCycle_running s _ running, renewCommand,
    acceptCommand_attached s _ _ attached, withLock_named s _ named]

/-! ### ACQUIRE -/

theorem acquire_mode_out_of_range (out : ¬ ModeInRange s t) :
    acquire s t l = s.refuse t .badOperand := by
  simp only [acquire, modeOf_out_of_range out]

theorem exists_modeOf (mode : ModeInRange s t) : ∃ m, modeOf (s.operand t 1) = some m := by
  rcases mode with nowait | wait
  · exact ⟨.nowait, by rw [nowait, modeOf_nowait]⟩
  · exact ⟨.wait, by rw [wait, modeOf_wait]⟩

theorem acquire_outside_mask (mode : ModeInRange s t)
    (outside : admits (s.lock l).useMask t = false) :
    acquire s t l = s.deny t .acquire l.val := by
  obtain ⟨m, known⟩ := exists_modeOf mode
  simp [acquire, known, outside]

section InsideMask

variable (inside : admits (s.lock l).useMask t = true)
include inside

theorem acquire_of_free (mode : ModeInRange s t) (free : (s.lock l).hold = none) :
    acquire s t l = acquireFree s t l := by
  obtain ⟨m, known⟩ := exists_modeOf mode
  simp [acquire, known, inside, free]

theorem acquire_by_holder {h : Hold} (mode : ModeInRange s t) (held : (s.lock l).hold = some h)
    (own : h.holder = t) : acquire s t l = acquireNested s t l h := by
  obtain ⟨m, known⟩ := exists_modeOf mode
  simp [acquire, known, inside, held, own]

theorem acquire_nowait_of_held {h : Hold} (nowait : s.operand t 1 = 0)
    (held : (s.lock l).hold = some h) (other : h.holder ≠ t) :
    acquire s t l = s.refuse t .wouldWait := by
  have known : modeOf (s.operand t 1) = some .nowait := by rw [nowait, modeOf_nowait]
  simp [acquire, known, inside, held, other]

theorem acquire_wait_of_held {h : Hold} (wait : s.operand t 1 = 1)
    (held : (s.lock l).hold = some h) (other : h.holder ≠ t) :
    acquire s t l = acquireWait s t l h := by
  have known : modeOf (s.operand t 1) = some .wait := by rw [wait, modeOf_wait]
  simp [acquire, known, inside, held, other]

end InsideMask

theorem acquireNested_room {h : Hold} (room : h.depth < 15) :
    acquireNested s t l h =
      (s.setLock l { s.lock l with
        hold := some { h with depth := h.depth + 1, lease := (s.lock l).leaseStart } }).done t
        (BitVec.ofNat 16 (h.depth + 1)) :=
  if_neg (Nat.not_le.mpr room)

theorem acquireNested_full {h : Hold} (full : 15 ≤ h.depth) :
    acquireNested s t l h = s.refuse t .depth :=
  if_pos full

theorem acquireWait_chain {h : Hold} (chain : LeadsTo s h.holder t) :
    acquireWait s t l h = s.refuse t .deadlock :=
  if_pos ((walkReaches_iff_leadsTo t h.holder).mpr chain)

theorem acquireWait_quiesced {h : Hold} (noChain : ¬ LeadsTo s h.holder t)
    (quiesce : s.sup.quiesce = true) : acquireWait s t l h = s.refuse t .quiesced := by
  rw [← walkReaches_iff_leadsTo] at noChain
  simp [acquireWait, noChain, quiesce]

theorem acquireWait_pending {h : Hold} (noChain : ¬ LeadsTo s h.holder t)
    (quiesce : s.sup.quiesce = false) :
    acquireWait s t l h =
      (s.setLock l { s.lock l with waiters := (s.lock l).waiters ++ [t] }).startWait t
        (.acquire l) (s.operand t 2) := by
  rw [← walkReaches_iff_leadsTo] at noChain
  simp [acquireWait, noChain, quiesce]

/-! ### RELEASE and RENEW -/

/-- RELEASE and RENEW by an agent that is not the holder meet one refusal (R16, R19). -/
theorem release_not_holder (other : ∀ h ∈ (s.lock l).hold, h.holder ≠ t) :
    release s t l = s.refuse t .notHolder := by
  unfold release
  split
  · rfl
  · next h held => exact if_pos (other h held)

theorem renew_not_holder (other : ∀ h ∈ (s.lock l).hold, h.holder ≠ t) :
    renew s t l = s.refuse t .notHolder := by
  unfold renew
  split
  · rfl
  · next h held => exact if_pos (other h held)

section ByHolder

variable {h : Hold} (held : (s.lock l).hold = some h) (own : h.holder = t)
include held own

theorem release_nested (nested : 2 ≤ h.depth) :
    release s t l =
      (s.setLock l { s.lock l with hold := some { h with depth := h.depth - 1 } }).done t
        (BitVec.ofNat 16 (h.depth - 1)) := by
  have more : 1 < h.depth := nested
  simp [release, held, own, more]

theorem release_last (last : h.depth = 1) :
    release s t l = (passLock s l false).done t 0 := by
  simp [release, held, own, last]

theorem renew_by_holder :
    renew s t l =
      (s.setLock l { s.lock l with hold := some { h with lease := (s.lock l).leaseStart } }).done t
        (BitVec.ofNat 16 h.depth) := by
  simp [renew, held, own]

end ByHolder

/-! ### LOCK_CONFIG -/

theorem lockConfig_of_held (held : (s.lock l).hold ≠ none) :
    lockConfig s l = s.supResult .inUse :=
  if_pos (Option.isSome_iff_ne_none.mpr held)

theorem lockConfig_of_free (free : (s.lock l).hold = none) :
    lockConfig s l =
      (s.setLock l { s.lock l with
        leaseLength := s.supOperand 1, useMask := s.supOperand 2, broken := false }).supResult
        .done := by
  simp [lockConfig, free]

theorem exec_lockConfig_running (running : Running s) :
    exec .lockConfig s = .next (withSupObject s 64 (lockConfig s)).answerWrite :=
  (exec_lockConfig s).trans (writeCycle_running s _ running)

/-! ### The statements -/

/-- Settles O10: both modes reach the grant of a FREE lock. -/
theorem acquireOfFreeLock : Obligations.AcquireOfFreeLock := by
  intro t l s ready named mode inside free
  rw [exec_acquire_ready ready named, acquire_of_free inside mode free]
  rfl

/-- Settles O11: below the deepest depth the holder's ACQUIRE nests, at it the refusal is DEPTH. -/
theorem acquireByHolderNests : Obligations.AcquireByHolderNests := by
  rintro t l h s ready named mode inside held rfl
  rw [exec_acquire_ready ready named, acquire_by_holder inside mode held rfl]
  refine ⟨fun room => ?_, fun full => ?_⟩
  · rw [acquireNested_room room]
    rfl
  · rw [acquireNested_full full]
    rfl

/-- Settles O12: neither check reads the hold of the lock. -/
theorem acquireChecksModeThenMask : Obligations.AcquireChecksModeThenMask := by
  intro t l s ready named
  rw [exec_acquire_ready ready named]
  refine ⟨fun out => ?_, fun mode outside => ?_⟩
  · rw [acquire_mode_out_of_range out]
  · rw [acquire_outside_mask mode outside]
    rfl

/-- Settles O13: the walk of 16 steps decides whether the chain of holders leads back to the caller. -/
theorem acquireOfLockHeldByOther : Obligations.AcquireOfLockHeldByOther := by
  refine ⟨fun t l h s ready named nowait inside held other => ?_,
    fun t l h s ready named wait inside held other => ?_⟩
  · rw [exec_acquire_ready ready named, acquire_nowait_of_held inside nowait held other]
    rfl
  · rw [exec_acquire_ready ready named, acquire_wait_of_held inside wait held other]
    refine ⟨fun chain => ?_, fun noChain quiesce => ?_, fun noChain quiesce => ?_⟩
    · rw [acquireWait_chain chain]
      rfl
    · rw [acquireWait_quiesced noChain quiesce]
      rfl
    · rw [acquireWait_pending noChain quiesce]
      rfl

/-- RELEASE to depth zero with nobody waiting: the lock becomes FREE (R17). -/
theorem release_last_nobody {h : Hold} (held : (s.lock l).hold = some h) (own : h.holder = t)
    (last : h.depth = 1) (nobody : (s.lock l).waiters = []) :
    release s t l =
      (s.setLock l { s.lock l with hold := none, broken := false }).setAgent t
        { s.agent t with res := .doneWith 0 } := by
  rw [release_last held own last, passLock_nobody s l false nobody]
  rfl

/-- RELEASE to depth zero with an agent waiting: the head waiter gets the lock, without BROKEN (R17). -/
theorem release_last_waiter {h : Hold} {w : Agent} {rest : List Agent}
    (held : (s.lock l).hold = some h) (own : h.holder = t) (last : h.depth = 1)
    (queue : (s.lock l).waiters = w :: rest) (other : w ≠ t) :
    release s t l =
      ((s.setLock l { (s.lock l).grantTo w with waiters := rest }).setAgent w
        { s.agent w with
          port := .attached, res := .granted false
          notices := (s.agent w).notices ||| Notice.waitDone.bit }).setAgent t
        { s.agent t with res := .doneWith 0 } := by
  rw [release_last held own last, passLock_head s l false queue, done_eq, endWait_eq,
    setAgent_agent_ne _ _ _ other.symm]
  rfl

/-- Settles O14: the three commands' cases, one lemma each. -/
theorem releaseAndRenewByHolder : Obligations.ReleaseAndRenewByHolder := by
  refine ⟨fun t l s ready named => ⟨fun other => ?_, fun h held own nested => ?_⟩,
    fun t l h s ready named held own last =>
      ⟨fun nobody => ?_, fun w rest queue other => ?_⟩,
    fun t l s ready named => ⟨fun other => ?_, fun h held own => ?_⟩⟩
  · rw [exec_release_ready ready named, release_not_holder other]
    rfl
  · rw [exec_release_ready ready named, release_nested held own nested]
    rfl
  · rw [exec_release_ready ready named, release_last_nobody held own last nobody]
  · rw [exec_release_ready ready named, release_last_waiter held own last queue other]
    rfl
  · rw [exec_renew_ready ready named, renew_not_holder other]
    rfl
  · rw [exec_renew_ready ready named, renew_by_holder held own]
    rfl

/-- Settles O15: the number is judged first, then the state of the lock. -/
theorem lockConfigOfFreeLock : Obligations.LockConfigOfFreeLock := by
  intro s running
  rw [exec_lockConfig_running running]
  refine ⟨fun above => ?_, fun l named => ?_⟩
  · rw [withSupObject_out_of_range s _ above]
  · rw [withSupObject_named s _ named]
    refine ⟨fun held => ?_, fun free => ?_⟩
    · rw [lockConfig_of_held held]
    · rw [lockConfig_of_free free]

end Sys2Proof.Machine

/-! RESET: what a part held in it does not take, the statement about it, and the laws in the state after it. -/

namespace Sys2Proof.Machine

/-! ### A part in reset -/

section Held

variable {s : State} (held : s.pins.resetHeld = true)
include held

/-- A bus cycle of a part in reset is not answered and has no other effect (R163). -/
theorem exec_busCycle_held {c : Instr} (cycle : c.isBusCycle = true) :
    exec c s = .next s.unanswered := by
  cases c with
  | noteRead | tickloRead | tickhiRead =>
    simp only [exec_noteRead, exec_tickloRead, exec_tickhiRead, readCycle_held s _ _ held]
  | reset | resetRelease | freezeAssert | freezeRelease => cases cycle
  | tick | refclkPeriodCounted | leaseCountdown | leaseExpiry | deadlineCountdown | deadlineExpiry
    | lockSweepStep | queueSweepStep | purgeStep => cases cycle
  | _ =>
    simp only [exec_attach, exec_detach, exec_cancel, exec_acquire, exec_release, exec_renew,
      exec_send, exec_receive, exec_bind, exec_unbind, exec_watch, exec_unwatch, exec_lockConfig,
      exec_queueOpen, exec_queueClose, exec_queuePurge, exec_retire, exec_quiesce, exec_resume,
      exec_ackViolation, exec_clear, exec_nenWrite, exec_tickdivWrite,
      exec_supervisorPageWriteDenied, exec_registerWrite, exec_unknownAgentCommandCode,
      exec_unknownSupervisorCommandCode, writeCycle_held s _ held]

/-- An event of a block is not taken while the part is in reset (R163). -/
theorem exec_blockEvent_held {c : Instr} (event : c.isBlockEvent = true) :
    exec c s = .next s := by
  cases c with
  | tick | refclkPeriodCounted | leaseCountdown | leaseExpiry | deadlineCountdown | deadlineExpiry
    | lockSweepStep | queueSweepStep | purgeStep =>
    simp only [exec_tick, exec_refclkPeriodCounted, exec_leaseCountdown, exec_leaseExpiry,
      exec_deadlineCountdown, exec_deadlineExpiry, exec_lockSweepStep, exec_queueSweepStep,
      exec_purgeStep, blockEvent_held s _ held]
  | _ => cases event

/-- No read is answered either (R163). -/
theorem registerRead_held (t : Agent) (off : Offset) :
    registerRead t off s = .next s.unanswered :=
  readCycle_held s _ _ held

end Held

/-- Settles O3: the blocks read their state after RESET, and a held part neither answers nor takes an event. -/
theorem resetHoldsEveryBlock : Obligations.ResetHoldsEveryBlock := by
  refine ⟨fun s => ⟨enterReset s, exec_reset s, enterReset_lock s, enterReset_queue s, rfl,
      enterReset_unreserved s, rfl, fun a => ?_, rfl, rfl, fun i => ?_, rfl, rfl, rfl, rfl, rfl,
      rfl, rfl, rfl, rfl, rfl⟩,
    fun c s held => ⟨exec_busCycle_held held, exec_blockEvent_held held⟩,
    fun t off s held => registerRead_held held t off⟩
  · rw [State.attention, enterReset_agent]
    exact ⟨rfl, fun i => Table.get_all _ i, rfl, rfl, rfl, rfl, rfl, rfl,
      fun k => Table.get_all _ k, rfl⟩
  · exact Table.get_all _ i

/-! ### The laws -/

@[simp] theorem initial_awaitedLock : AgentCtx.initial.awaitedLock = none := rfl

@[simp] theorem initial_awaitedSend : AgentCtx.initial.awaitedSend = none := rfl

@[simp] theorem initial_deadline : AgentCtx.initial.deadline = none := rfl

@[simp] theorem initial_hold : Lock.initial.hold = none := rfl

@[simp] theorem initial_waiters : Lock.initial.waiters = [] := rfl

@[simp] theorem initial_bound : Queue.initial.bound = none := rfl

@[simp] theorem initial_receivers : Queue.initial.receivers = [] := rfl

@[simp] theorem reset_senderWait : State.reset.senderWait = [] := rfl

@[simp] theorem reset_awaitedReceive (a : Agent) : State.reset.awaitedReceive a = none := by
  rw [State.awaitedReceive, reset_agent]
  rfl

/-- After RESET every wait list is empty and nobody waits. -/
theorem reset_waitLaw : WaitLaw State.reset := by
  refine ⟨fun a l => ?_, fun l => ?_, fun l h held => ?_, fun q r waits => ?_, fun a x waits => ?_,
    fun q => ?_, fun a => ?_, List.nodup_nil⟩
  · simp
  · simp
  · simp at held
  · simp at waits
  · simp at waits
  · simp
  · simp

theorem reset_noCircle : NoCircle State.reset := fun a b edge => by
  simp [State.waitsOn] at edge

/-- After RESET there is no job, no agent is RETIRING and no queue PURGING. -/
theorem reset_jobLaw : JobLaw State.reset := by
  refine ⟨List.nodup_nil, fun a => ?_, fun q => ?_, rfl⟩
  · rw [reset_agent]
    exact ⟨nofun, nofun⟩
  · rw [reset_queue]
    exact ⟨nofun, nofun⟩

/-- Settles O53: after RESET no lock is held, no queue is open, and no agent waits, so each law holds at once. -/
theorem lawsHoldAtReset : Obligations.LawsHoldAtReset where
  locks l := by rw [reset_lock]; rfl
  queues q := by rw [reset_queue]; rfl
  store := by decide
  order q := by rw [reset_queue]; rfl
  wait := reset_waitLaw
  blocked a x sends := by simp at sends
  deadlines a d waits := by simp at waits
  noCircle := reset_noCircle
  noMatch q r waits := by simp at waits
  noRoom a x sends := by simp at sends
  bound q b bound := by simp at bound
  jobs := reset_jobLaw
  sweep := ⟨fun l h held => by simp at held, fun q b bound => by simp at bound⟩
  detached :=
    ⟨fun l h held => by simp at held, fun q b bound => by simp at bound,
      fun a _ => by rw [reset_agent]; rfl⟩
  notices :=
    ⟨fun a => by rw [reset_agent]; rfl, fun a => by rw [reset_agent]; rfl,
      fun a _ => by rw [reset_agent]; rfl⟩
  time := by decide
  reset held := by cases held
  bus := rfl

end Sys2Proof.Machine

/-! What an event can do to the store: the changes to the queue records, with the slots that they take and free, and the three laws that all of them keep (R29, R30, R33, R34). -/

namespace Sys2Proof.Machine

/-! ### The law of one queue record, by its state -/

theorem Limits.lawful_iff {lim : Limits} :
    lim.lawful = true ↔ 1 ≤ lim.capacity ∧ lim.capacity ≤ 256 ∧ lim.reserve ≤ lim.capacity := by
  simp [Limits.lawful, and_assoc]

theorem Queue.lawful_iff_of_closed {k : Queue} (closed : k.state = .closed) :
    k.lawful = true ↔ k.messages = [] ∧ k.bound = none ∧ k.receivers = [] := by
  simp [Queue.lawful, closed, and_assoc]

theorem Queue.lawful_iff_of_opened {k : Queue} {lim : Limits} (opened : k.state = .opened lim) :
    k.lawful = true ↔ lim.lawful = true ∧ k.held ≤ lim.capacity := by
  simp [Queue.lawful, opened]

theorem Queue.lawful_iff_of_purging {k : Queue} {lim : Limits} {b : Bool}
    (purging : k.state = .purging lim b) :
    k.lawful = true ↔
      lim.lawful = true ∧ k.held ≤ lim.capacity ∧ k.messages ≠ [] ∧ k.receivers = [] := by
  simp [Queue.lawful, purging, and_assoc]

theorem Queue.unusedReserve_of_closed {k : Queue} (closed : k.state = .closed) :
    k.unusedReserve = 0 := by
  simp [Queue.unusedReserve, closed]

theorem Queue.unusedReserve_of_opened {k : Queue} {lim : Limits}
    (opened : k.state = .opened lim) : k.unusedReserve = lim.reserve - k.held := by
  simp [Queue.unusedReserve, opened]

theorem Queue.unusedReserve_of_purging {k : Queue} {lim : Limits} {b : Bool}
    (purging : k.state = .purging lim b) : k.unusedReserve = lim.reserve - k.held := by
  simp [Queue.unusedReserve, purging]

theorem Queue.held_congr {k k' : Queue} (messages : k'.messages = k.messages) :
    k'.held = k.held :=
  congrArg List.length messages

theorem Queue.held_of_placed {k k' : Queue} {d : Stored}
    (messages : k'.messages = placeMessage d k.messages) : k'.held = k.held + 1 := by
  rw [Queue.held, messages, (placeMessage_perm d _).length_eq, List.length_cons, Queue.held]

/-- The unused reserve reads the state and the messages, nothing else. -/
theorem Queue.unusedReserve_congr {k k' : Queue} (state : k'.state = k.state)
    (messages : k'.messages = k.messages) : k'.unusedReserve = k.unusedReserve := by
  simp [Queue.unusedReserve, Queue.held, state, messages]

/-- In one state of the queue, one slot more in the reserve is at most one more message gone. -/
theorem Queue.unusedReserve_le_succ {k k' : Queue} (state : k'.state = k.state)
    (fewer : k'.held + 1 = k.held) : k'.unusedReserve ≤ k.unusedReserve + 1 := by
  unfold Queue.unusedReserve
  rw [state]
  split
  · exact Nat.zero_le _
  · omega
  · omega

/-! ### URGENT before NORMAL -/

/-- A list in the order of R34 is one of URGENT messages followed by one of NORMAL ones. -/
theorem urgentFirst_iff_split {msgs : List Stored} :
    urgentFirst msgs = true ↔
      ∃ urgents normals, msgs = urgents ++ normals ∧
        (∀ x ∈ urgents, x.msg.urgency = .urgent) ∧ (∀ x ∈ normals, x.msg.urgency = .normal) := by
  induction msgs with
  | nil => exact ⟨fun _ => ⟨[], [], by simp⟩, fun _ => rfl⟩
  | cons d rest ih =>
    constructor
    · intro order
      simp only [urgentFirst, Bool.and_eq_true, Bool.or_eq_true, beq_iff_eq, List.all_eq_true]
        at order
      obtain ⟨head, tail⟩ := order
      cases urgency : d.msg.urgency with
      | urgent =>
        obtain ⟨urgents, normals, rfl, allUrgent, allNormal⟩ := ih.mp tail
        exact ⟨d :: urgents, normals, rfl, by simpa [urgency] using allUrgent, allNormal⟩
      | normal => exact ⟨[], d :: rest, rfl, by simp, by simpa [urgency] using head⟩
    · rintro ⟨urgents, normals, split, allUrgent, allNormal⟩
      simp only [urgentFirst, Bool.and_eq_true, Bool.or_eq_true, beq_iff_eq, List.all_eq_true]
      cases urgents with
      | nil =>
        obtain rfl : d :: rest = normals := split
        obtain ⟨-, tail⟩ := List.forall_mem_cons.mp allNormal
        exact ⟨.inr tail, ih.mpr ⟨[], rest, rfl, by simp, tail⟩⟩
      | cons u urgents =>
        obtain ⟨rfl, rfl⟩ := List.cons.inj split
        obtain ⟨head, tail⟩ := List.forall_mem_cons.mp allUrgent
        exact ⟨.inl head, ih.mpr ⟨urgents, normals, rfl, tail, allNormal⟩⟩

/-- A message is placed where the order of R34 wants it. -/
theorem urgentFirst_placeMessage (d : Stored) {msgs : List Stored}
    (order : urgentFirst msgs = true) : urgentFirst (placeMessage d msgs) = true := by
  obtain ⟨urgents, normals, rfl, allUrgent, allNormal⟩ := urgentFirst_iff_split.mp order
  rw [placeMessage_split d allUrgent allNormal, urgentFirst_iff_split]
  cases urgency : d.msg.urgency with
  | urgent =>
    refine ⟨urgents ++ [d], normals, by simp, ?_, allNormal⟩
    simpa [or_imp, forall_and, urgency] using allUrgent
  | normal =>
    refine ⟨urgents, normals ++ [d], by simp, allUrgent, ?_⟩
    simpa [or_imp, forall_and, urgency] using allNormal

/-- Removing messages leaves the others in their order. -/
theorem urgentFirst_sublist {msgs msgs' : List Stored} (fewer : msgs'.Sublist msgs)
    (order : urgentFirst msgs = true) : urgentFirst msgs' = true := by
  obtain ⟨urgents, normals, rfl, allUrgent, allNormal⟩ := urgentFirst_iff_split.mp order
  obtain ⟨urgents', normals', rfl, fromUrgents, fromNormals⟩ := List.sublist_append_iff.mp fewer
  exact urgentFirst_iff_split.mpr ⟨urgents', normals', rfl,
    fun x mem => allUrgent x (fromUrgents.subset mem),
    fun x mem => allNormal x (fromNormals.subset mem)⟩

/-! ### The changes to a queue record -/

/-- The binding, the receiver wait list, the masks or the next sequence change, and no message comes or goes. Parties come only to an OPEN queue (R33, R40). -/
structure PartiesChange (k k' : Queue) : Prop where
  state : k'.state = k.state
  messages : k'.messages = k.messages
  parties : (∃ lim, k.state = .opened lim) ∨
    ((k.bound = none → k'.bound = none) ∧ (k.receivers = [] → k'.receivers = []))

/-- What an event can do to the record of queue `q` when it does more than move its parties: the record after it, and the free count after it. -/
inductive QueueChange (s : State) (q : QueueId) (k' : Queue) (free : Nat) : Prop
  /-- A message is admitted: the queue is below its capacity, and its reserve or the unreserved slots have one for it (R58, R59). -/
  | admits (lim : Limits) (d : Stored)
      (opened : (s.queue q).state = .opened lim) (state : k'.state = .opened lim)
      (capacity : (s.queue q).held < lim.capacity)
      (room : (s.queue q).held < lim.reserve ∨ 0 < s.unreserved)
      (messages : k'.messages = placeMessage d (s.queue q).messages)
      (slots : free = s.freeCount - 1)
  /-- A message leaves with its slot, and not the last one of a PURGING queue (R75, R142). -/
  | takes (state : k'.state = (s.queue q).state)
      (fewer : k'.messages.Sublist (s.queue q).messages)
      (one : k'.held + 1 = (s.queue q).held)
      (stays : (∃ lim, (s.queue q).state = .opened lim) ∨ k'.messages ≠ [])
      (receivers : k'.receivers = (s.queue q).receivers)
      (slots : free = s.freeCount + 1)
  /-- A CLOSED queue opens; the unreserved slots cover its reserve (R39). -/
  | opens (lim : Limits)
      (closed : (s.queue q).state = .closed) (state : k'.state = .opened lim)
      (lawful : lim.lawful = true) (reserve : lim.reserve ≤ s.unreserved)
      (messages : k'.messages = [])
      (slots : free = s.freeCount)
  /-- An OPEN queue that holds messages becomes PURGING, its waiting parties gone (R41, R43). -/
  | purges (lim : Limits) (closeAfter : Bool)
      (opened : (s.queue q).state = .opened lim) (state : k'.state = .purging lim closeAfter)
      (messages : k'.messages = (s.queue q).messages) (holds : (s.queue q).messages ≠ [])
      (receivers : k'.receivers = [])
      (slots : free = s.freeCount)
  /-- The close-after-purge mark of a PURGING queue is set (R41). -/
  | marks (lim : Limits) (before after : Bool)
      (purging : (s.queue q).state = .purging lim before) (state : k'.state = .purging lim after)
      (messages : k'.messages = (s.queue q).messages)
      (receivers : k'.receivers = (s.queue q).receivers)
      (slots : free = s.freeCount)
  /-- A queue closes, and the slots of what it held are free (R41, R42, R143). -/
  | closes (state : k'.state = .closed) (messages : k'.messages = []) (bound : k'.bound = none)
      (receivers : (s.queue q).lawful = true → k'.receivers = [])
      (slots : free = s.freeCount + (s.queue q).held)
  /-- A purge ends without closing the queue (R143). -/
  | reopens (lim : Limits) (closeAfter : Bool)
      (purging : (s.queue q).state = .purging lim closeAfter) (state : k'.state = .opened lim)
      (messages : k'.messages = [])
      (slots : free = s.freeCount + (s.queue q).held)

theorem PartiesChange.refl (k : Queue) : PartiesChange k k :=
  ⟨rfl, rfl, .inr ⟨id, id⟩⟩

theorem PartiesChange.lawful {k k' : Queue} (change : PartiesChange k k')
    (lawful : k.lawful = true) : k'.lawful = true := by
  obtain ⟨state, messages, parties⟩ := change
  cases known : k.state with
  | closed =>
    obtain ⟨empty, unbound, nobody⟩ := (Queue.lawful_iff_of_closed known).mp lawful
    obtain ⟨_, opened⟩ | ⟨bound, receivers⟩ := parties
    · simp [known] at opened
    · exact (Queue.lawful_iff_of_closed (state.trans known)).mpr
        ⟨messages.trans empty, bound unbound, receivers nobody⟩
  | opened lim =>
    rw [Queue.lawful_iff_of_opened known] at lawful
    rwa [Queue.lawful_iff_of_opened (state.trans known), Queue.held_congr messages]
  | purging lim b =>
    obtain ⟨limits, held, holds, nobody⟩ := (Queue.lawful_iff_of_purging known).mp lawful
    obtain ⟨_, opened⟩ | ⟨-, receivers⟩ := parties
    · simp [known] at opened
    · exact (Queue.lawful_iff_of_purging (state.trans known)).mpr
        ⟨limits, Queue.held_congr messages ▸ held, messages ▸ holds, receivers nobody⟩

section QueueChange

variable {s : State} {q : QueueId} {k' : Queue} {free : Nat}

theorem QueueChange.lawful (change : QueueChange s q k' free)
    (lawful : (s.queue q).lawful = true) : k'.lawful = true := by
  cases change with
  | admits lim d opened state capacity room messages slots =>
    obtain ⟨limits, -⟩ := (Queue.lawful_iff_of_opened opened).mp lawful
    have held := Queue.held_of_placed messages
    exact (Queue.lawful_iff_of_opened state).mpr ⟨limits, by omega⟩
  | takes state fewer one stays receivers slots =>
    cases known : (s.queue q).state with
    | closed =>
      obtain ⟨empty, -, -⟩ := (Queue.lawful_iff_of_closed known).mp lawful
      simp [Queue.held, empty] at one
    | opened lim =>
      obtain ⟨limits, held⟩ := (Queue.lawful_iff_of_opened known).mp lawful
      exact (Queue.lawful_iff_of_opened (state.trans known)).mpr ⟨limits, by omega⟩
    | purging lim b =>
      obtain ⟨limits, held, -, nobody⟩ := (Queue.lawful_iff_of_purging known).mp lawful
      obtain ⟨_, opened⟩ | stays := stays
      · simp [known] at opened
      · exact (Queue.lawful_iff_of_purging (state.trans known)).mpr
          ⟨limits, by omega, stays, receivers.trans nobody⟩
  | opens lim closed state limits reserve messages slots =>
    exact (Queue.lawful_iff_of_opened state).mpr ⟨limits, by simp [Queue.held, messages]⟩
  | purges lim closeAfter opened state messages holds receivers slots =>
    obtain ⟨limits, held⟩ := (Queue.lawful_iff_of_opened opened).mp lawful
    exact (Queue.lawful_iff_of_purging state).mpr
      ⟨limits, Queue.held_congr messages ▸ held, messages ▸ holds, receivers⟩
  | marks lim before after purging state messages receivers slots =>
    obtain ⟨limits, held, holds, nobody⟩ := (Queue.lawful_iff_of_purging purging).mp lawful
    exact (Queue.lawful_iff_of_purging state).mpr
      ⟨limits, Queue.held_congr messages ▸ held, messages ▸ holds, receivers.trans nobody⟩
  | closes state messages bound receivers slots =>
    exact (Queue.lawful_iff_of_closed state).mpr ⟨messages, bound, receivers lawful⟩
  | reopens lim closeAfter purging state messages slots =>
    obtain ⟨limits, -, -, -⟩ := (Queue.lawful_iff_of_purging purging).mp lawful
    exact (Queue.lawful_iff_of_opened state).mpr ⟨limits, by simp [Queue.held, messages]⟩

/-- Where a message can be admitted there is a free slot: the reserve that the queue has not used, or an unreserved one (R30). -/
theorem one_le_freeCount_of_room {lim : Limits} (store : StoreLaw s)
    (opened : (s.queue q).state = .opened lim)
    (room : (s.queue q).held < lim.reserve ∨ 0 < s.unreserved) : 1 ≤ s.freeCount := by
  obtain ⟨-, covered⟩ := store
  rcases room with reserved | unreserved
  · have share : (s.queue q).unusedReserve ≤ s.queues.sum Queue.unusedReserve :=
      Table.le_sum s.queues q _
    rw [Queue.unusedReserve_of_opened opened] at share
    omega
  · rw [State.unreserved] at unreserved
    omega

/-- The slots that the queue gains are those that the free count loses (R29). -/
theorem QueueChange.slots_balance (change : QueueChange s q k' free)
    (lawful : (s.queue q).lawful = true) (store : StoreLaw s) :
    free + k'.held = s.freeCount + (s.queue q).held := by
  cases change with
  | admits lim d opened state capacity room messages slots =>
    have slot := one_le_freeCount_of_room store opened room
    have held := Queue.held_of_placed messages
    omega
  | takes state fewer one stays receivers slots => omega
  | opens lim closed state limits reserve messages slots =>
    obtain ⟨empty, -, -⟩ := (Queue.lawful_iff_of_closed closed).mp lawful
    rw [slots, Queue.held_congr (messages.trans empty.symm)]
  | purges lim closeAfter opened state messages holds receivers slots =>
    rw [slots, Queue.held_congr messages]
  | marks lim before after purging state messages receivers slots =>
    rw [slots, Queue.held_congr messages]
  | closes state messages bound receivers slots => simp [slots, Queue.held, messages]
  | reopens lim closeAfter purging state messages slots => simp [slots, Queue.held, messages]

/-- The unused reserves stay covered (R30): what the queue adds to them, the free count has to spare or gains. -/
theorem QueueChange.reserves_covered (change : QueueChange s q k' free)
    (store : StoreLaw s) :
    s.queues.sum Queue.unusedReserve + k'.unusedReserve ≤ free + (s.queue q).unusedReserve := by
  have ⟨_, covered⟩ := store
  cases change with
  | admits lim d opened state capacity room messages slots =>
    have slot := one_le_freeCount_of_room store opened room
    have held := Queue.held_of_placed messages
    rw [Queue.unusedReserve_of_opened opened, Queue.unusedReserve_of_opened state]
    rw [State.unreserved] at room
    omega
  | takes state fewer one stays receivers slots =>
    have gain := Queue.unusedReserve_le_succ state one
    omega
  | opens lim closed state limits reserve messages slots =>
    rw [Queue.unusedReserve_of_closed closed, Queue.unusedReserve_of_opened state]
    rw [State.unreserved] at reserve
    omega
  | purges lim closeAfter opened state messages holds receivers slots =>
    rw [Queue.unusedReserve_of_opened opened, Queue.unusedReserve_of_purging state,
      Queue.held_congr messages]
    omega
  | marks lim before after purging state messages receivers slots =>
    rw [Queue.unusedReserve_of_purging purging, Queue.unusedReserve_of_purging state,
      Queue.held_congr messages]
    omega
  | closes state messages bound receivers slots =>
    rw [Queue.unusedReserve_of_closed state]
    omega
  | reopens lim closeAfter purging state messages slots =>
    rw [Queue.unusedReserve_of_purging purging, Queue.unusedReserve_of_opened state]
    omega

theorem QueueChange.order (change : QueueChange s q k' free)
    (order : urgentFirst (s.queue q).messages = true) : urgentFirst k'.messages = true := by
  cases change with
  | admits lim d opened state capacity room messages slots =>
    exact messages ▸ urgentFirst_placeMessage d order
  | takes state fewer one stays receivers slots => exact urgentFirst_sublist fewer order
  | purges lim closeAfter opened state messages holds receivers slots => exact messages ▸ order
  | marks lim before after purging state messages receivers slots => exact messages ▸ order
  | opens lim closed state limits reserve messages slots => exact messages ▸ rfl
  | closes state messages bound receivers slots => exact messages ▸ rfl
  | reopens lim closeAfter purging state messages slots => exact messages ▸ rfl

end QueueChange

/-! ### The changes to the store -/

/-- One change to the store: to the parties of any queues, to one queue record, or to all of it at CLEAR and RESET. -/
inductive StoreChange (s s' : State) : Prop
  | parties (each : ∀ q, PartiesChange (s.queue q) (s'.queue q))
      (free : s'.freeCount = s.freeCount)
  | queue (q : QueueId) (k' : Queue) (queues : s'.queues = s.queues.set q k')
      (change : QueueChange s q k' s'.freeCount)
  | wiped (queues : s'.queues = State.reset.queues) (free : s'.freeCount = State.reset.freeCount)

/-- What an event does to the store is a run of such changes. -/
abbrev StoreEvent : State → State → Prop :=
  Relation.ReflTransGen StoreChange

section StoreEvent

variable {s s' u : State}

theorem queue_of_queues_set {q : QueueId} {k' : Queue} (queues : s'.queues = s.queues.set q k')
    (x : QueueId) : s'.queue x = if x = q then k' else s.queue x := by
  rw [State.queue, queues, Table.get_set]
  rfl

theorem StoreChange.queuesLawful (change : StoreChange s s') (lawful : QueuesLawful s) :
    QueuesLawful s' := by
  intro x
  cases change with
  | parties each free => exact (each x).lawful (lawful x)
  | queue q k' queues change =>
    rw [queue_of_queues_set queues]
    split
    · exact change.lawful (lawful q)
    · exact lawful x
  | wiped queues free =>
    rw [show s'.queue x = .initial from (congrArg (·.get x) queues).trans (reset_queue x)]
    rfl

theorem StoreChange.storeLaw (change : StoreChange s s') (lawful : QueuesLawful s)
    (store : StoreLaw s) : StoreLaw s' := by
  cases change with
  | parties each free =>
    rw [StoreLaw, free,
      Table.sum_congr fun q => Queue.held_congr (each q).messages,
      Table.sum_congr fun q => Queue.unusedReserve_congr (each q).state (each q).messages]
    exact store
  | queue q k' queues change =>
    have slots := change.slots_balance (lawful q) store
    have reserves := change.reserves_covered store
    obtain ⟨total, -⟩ := store
    have held : s'.queues.sum Queue.held + (s.queue q).held = s.queues.sum Queue.held + k'.held :=
      queues ▸ Table.sum_set s.queues q k' Queue.held
    have unused : s'.queues.sum Queue.unusedReserve + (s.queue q).unusedReserve =
        s.queues.sum Queue.unusedReserve + k'.unusedReserve :=
      queues ▸ Table.sum_set s.queues q k' Queue.unusedReserve
    exact ⟨by omega, by omega⟩
  | wiped queues free =>
    rw [StoreLaw, free, queues]
    exact lawsHoldAtReset.store

theorem StoreChange.orderLaw (change : StoreChange s s') (order : OrderLaw s) : OrderLaw s' := by
  intro x
  cases change with
  | parties each free => exact (each x).messages ▸ order x
  | queue q k' queues change =>
    rw [queue_of_queues_set queues]
    split
    · exact change.order (order q)
    · exact order x
  | wiped queues free =>
    rw [show s'.queue x = .initial from (congrArg (·.get x) queues).trans (reset_queue x)]
    rfl

theorem StoreEvent.storeLaws (event : StoreEvent s s') (lawful : QueuesLawful s)
    (store : StoreLaw s) : QueuesLawful s' ∧ StoreLaw s' := by
  induction event with
  | refl => exact ⟨lawful, store⟩
  | tail _ change ih =>
    obtain ⟨lawful, store⟩ := ih
    exact ⟨change.queuesLawful lawful, change.storeLaw lawful store⟩

theorem StoreEvent.orderLaw (event : StoreEvent s s') (order : OrderLaw s) : OrderLaw s' := by
  induction event with
  | refl => exact order
  | tail _ change ih => exact change.orderLaw ih

/-- The queue records and the free count stay as they are. -/
theorem StoreEvent.of_same (queues : s'.queues = s.queues) (free : s'.freeCount = s.freeCount) :
    StoreEvent s s' := by
  have same : ∀ q, s'.queue q = s.queue q := fun q => congrArg (·.get q) queues
  exact .single <| .parties (fun q => (same q).symm ▸ .refl _) free

/-- The parties of one queue change. -/
theorem StoreEvent.of_parties {q : QueueId} {k' : Queue} (change : PartiesChange (s.queue q) k')
    (queues : s'.queues = s.queues.set q k') (free : s'.freeCount = s.freeCount) :
    StoreEvent s s' := by
  refine .single <| .parties (fun x => ?_) free
  rw [queue_of_queues_set queues]
  split
  · next same => exact same ▸ change
  · exact .refl _

theorem storeEvent_setQueue {q : QueueId} {k' : Queue}
    (change : PartiesChange (s.queue q) k') : StoreEvent s (s.setQueue q k') :=
  .of_parties change rfl rfl

/-- One queue record changes. -/
theorem StoreEvent.of_queue {q : QueueId} {k' : Queue} (queues : s'.queues = s.queues.set q k')
    (change : QueueChange s q k' s'.freeCount) : StoreEvent s s' :=
  .single <| .queue q k' queues change

/-- `trans` with the later of the two given first, which says what the earlier ends in. -/
theorem StoreEvent.after (later : StoreEvent u s') (earlier : StoreEvent s u) : StoreEvent s s' :=
  Relation.ReflTransGen.trans earlier later

/-- What follows the event leaves the queue records and the free count. -/
theorem StoreEvent.then_same (event : StoreEvent s u) (queues : s'.queues = u.queues)
    (free : s'.freeCount = u.freeCount) : StoreEvent s s' :=
  .after (.of_same queues free) event

end StoreEvent

end Sys2Proof.Machine

/-! The events of the Queue Table and of the store: each is a run of store changes, and none sets STORE_EMPTY but by the reckoning at its end (R31). -/

namespace Sys2Proof.Machine

/-! ### The bit of STORE_EMPTY -/

theorem holdsNotice_or (set kinds : Word) (n : Notice) :
    holdsNotice (set ||| kinds) n = (holdsNotice set n || holdsNotice kinds n) :=
  BitVec.getLsbD_or

theorem holdsNotice_storeEmpty_bit_self : holdsNotice Notice.storeEmpty.bit .storeEmpty = true := by
  decide

/-- The set that holds another kind does not hold STORE_EMPTY. -/
theorem holdsNotice_storeEmpty_bit {n : Notice} (other : n ≠ .storeEmpty) :
    holdsNotice n.bit .storeEmpty = false := by
  cases n with
  | watch k => revert k; decide
  | storeEmpty => exact absurd rfl other
  | waitDone | leaseLost | violation | jobDone => decide

/-- The WATCH kinds are other bits than STORE_EMPTY's. -/
theorem holdsNotice_storeEmpty_watchKinds (c : AgentCtx) (q : QueueId) :
    holdsNotice (c.watchKinds q) .storeEmpty = false := by
  rw [holdsNotice, Bool.eq_false_iff, ne_eq, watchKinds_getLsbD q c (by decide)]
  rintro ⟨k, position, -⟩
  simp only [Notice.position] at position
  omega

/-! ### Events that do not set STORE_EMPTY -/

/-- A run of store changes that leaves the supervisor tag and every STORE_EMPTY as it is. -/
structure QuietEvent (s s' : State) : Prop where
  store : StoreEvent s s'
  tag : s'.sup.tag = s.sup.tag
  storeEmpty : ∀ a,
    holdsNotice (s'.agent a).notices .storeEmpty = holdsNotice (s.agent a).notices .storeEmpty

theorem QuietEvent.refl (s : State) : QuietEvent s s :=
  ⟨.refl, rfl, fun _ => rfl⟩

/-- The later of two events is given first: it says what the earlier ends in. -/
theorem QuietEvent.after {s u s' : State} (later : QuietEvent u s') (earlier : QuietEvent s u) :
    QuietEvent s s' :=
  ⟨later.store.after earlier.store, later.tag.trans earlier.tag,
    fun a => (later.storeEmpty a).trans (earlier.storeEmpty a)⟩

/-- A list of entries worked through one by one. -/
theorem QuietEvent.foldl {β : Type} {f : State → β → State} (each : ∀ s b, QuietEvent s (f s b))
    (entries : List β) (s : State) : QuietEvent s (entries.foldl f s) := by
  induction entries generalizing s with
  | nil => exact .refl s
  | cons b rest ih => exact (ih (f s b)).after (each s b)

/-- The contexts stay as they are. -/
theorem QuietEvent.of_store {s s' : State} (store : StoreEvent s s')
    (tag : s'.sup.tag = s.sup.tag) (agents : s'.agents = s.agents) : QuietEvent s s' :=
  ⟨store, tag, fun a => by simp [State.agent, agents]⟩

variable (s : State)

theorem quiet_setAgent (a : Agent) (c : AgentCtx)
    (same : holdsNotice c.notices .storeEmpty = holdsNotice (s.agent a).notices .storeEmpty) :
    QuietEvent s (s.setAgent a c) := by
  refine ⟨.of_same rfl rfl, rfl, fun x => ?_⟩
  rw [setAgent_agent]
  split
  · next self => rw [same, self]
  · rfl

theorem quiet_setResult (a : Agent) (r : Result) : QuietEvent s (s.setResult a r) :=
  quiet_setAgent s a _ rfl

theorem quiet_refuse (t : Agent) (c : ResCode) : QuietEvent s (s.refuse t c) :=
  quiet_setResult s t _

theorem quiet_done (t : Agent) (v : Word) : QuietEvent s (s.done t v) :=
  quiet_setResult s t _

theorem quiet_deliver (a : Agent) (d : Stored) : QuietEvent s (s.deliver a d) :=
  quiet_setAgent s a _ rfl

theorem quiet_startWait (t : Agent) (w : Want) (timeout : Word) :
    QuietEvent s (s.startWait t w timeout) :=
  quiet_setAgent s t _ rfl

theorem quiet_setNotice (a : Agent) {n : Notice} (other : n ≠ .storeEmpty) :
    QuietEvent s (s.setNotice a n) :=
  quiet_setAgent s a _ (by simp [holdsNotice_or, holdsNotice_storeEmpty_bit other])

theorem quiet_endWait (a : Agent) (r : Result) : QuietEvent s (s.endWait a r) :=
  quiet_setAgent s a _ (by
    simp [holdsNotice_or, holdsNotice_storeEmpty_bit (n := .waitDone) (by simp)])

theorem quiet_supResult (c : ResCode) : QuietEvent s (s.supResult c) :=
  .of_store (.of_same rfl rfl) rfl rfl

theorem quiet_recordViolation (t : Agent) (e : ViolationEvent) :
    QuietEvent s (s.recordViolation t e) := by
  cases full : s.sup.capture with
  | none =>
    rw [recordViolation_empty s t e full]
    exact .after (quiet_setNotice _ _ (by simp)) (.of_store (.of_same rfl rfl) rfl rfl)
  | some c =>
    rw [recordViolation_full s t e full]
    exact .of_store (.of_same rfl rfl) rfl rfl

theorem quiet_deny (t : Agent) (c : AgentCmd) (object : Nat) : QuietEvent s (s.deny t c object) :=
  .after (quiet_recordViolation _ t _) (quiet_refuse s t .denied)

theorem quiet_addJob (j : Job) : QuietEvent s (s.addJob j) :=
  .of_store (.of_same rfl rfl) rfl rfl

theorem quiet_endJob : QuietEvent s s.endJob :=
  .after (quiet_setNotice _ _ (by simp)) (.of_store (.of_same rfl rfl) rfl rfl)

/-- The parties of one queue change, in a state that keeps the rest of the store. -/
theorem quiet_setQueue {q : QueueId} {k : Queue} (change : PartiesChange (s.queue q) k) :
    QuietEvent s (s.setQueue q k) :=
  .of_store (storeEvent_setQueue change) rfl rfl

/-! ### Hand-off, admission and the admission pass -/

theorem quiet_handOff (q : QueueId) (m : Message) (r : Receiver) :
    QuietEvent s (s.handOff q m r) :=
  .after (quiet_endWait _ r.agent _)
    (.after (quiet_deliver _ r.agent _)
      (quiet_setQueue s ⟨rfl, rfl, .inr ⟨id, fun nobody => by simp [nobody]⟩⟩))

/-- The test of admission, which only an OPEN queue passes (R58). -/
theorem canAdmit_iff (q : QueueId) :
    s.canAdmit q = true ↔ ∃ lim, (s.queue q).state = .opened lim ∧
      (s.queue q).held < lim.capacity ∧ ((s.queue q).held < lim.reserve ∨ 0 < s.unreserved) := by
  unfold State.canAdmit
  cases (s.queue q).state <;> simp

theorem quiet_admitMessage {q : QueueId} (m : Message) (room : s.canAdmit q = true) :
    QuietEvent s (s.admitMessage q m) := by
  obtain ⟨lim, opened, capacity, room⟩ := (canAdmit_iff s q).mp room
  obtain ⟨-, free, -, -, -, sup, -, -, -⟩ := admit_frame s q m
  refine ⟨.of_queue (admit_queues s q m)
    (.admits lim _ opened opened capacity room rfl free), by rw [sup], fun a => ?_⟩
  rw [admit_agent]
  split
  · simp [holdsNotice_or, holdsNotice_storeEmpty_watchKinds]
  · rfl

theorem quiet_completeSender (a : Agent) (seq : Word) : QuietEvent s (s.completeSender a seq) :=
  .after (quiet_endWait _ a _) (.of_store (.of_same rfl rfl) rfl rfl)

theorem quiet_serveSender (a : Agent) : QuietEvent s (serveSender s a) := by
  unfold serveSender
  split
  · split
    · split
      · exact .after (quiet_completeSender _ a _) (quiet_handOff s _ _ _)
      · split
        · next room => exact .after (quiet_completeSender _ a _) (quiet_admitMessage s _ room)
        · exact .refl s
    · exact .refl s
  · exact .refl s

theorem quiet_admissionPass : QuietEvent s (admissionPass s) :=
  .foldl quiet_serveSender _ s

/-! ### SEND and RECEIVE -/

theorem quiet_sendBlocked (t : Agent) (q : QueueId) (mode : Mode) (m : Message) :
    QuietEvent s (sendBlocked s t q mode m) := by
  unfold sendBlocked
  split
  · exact quiet_refuse s t _
  · split
    · exact quiet_refuse s t _
    · exact .after (quiet_startWait _ t _ _) (.of_store (.of_same rfl rfl) rfl rfl)

theorem quiet_sendOffer (t : Agent) (q : QueueId) (mode : Mode) (m : Message) :
    QuietEvent s (sendOffer s t q mode m) := by
  unfold sendOffer
  split
  · exact .after (quiet_done _ t _) (quiet_handOff s q m _)
  · split
    · next room => exact .after (quiet_done _ t _) (quiet_admitMessage s m room)
    · exact quiet_sendBlocked s t q mode m

theorem quiet_takeFromSender (t : Agent) (q : QueueId) (a : Agent) (m : Message) :
    QuietEvent s (takeFromSender s t q a m) :=
  .after (quiet_setResult _ t _) (.after (quiet_deliver _ t _)
    (.after (quiet_completeSender _ a _) (quiet_setQueue s ⟨rfl, rfl, .inr ⟨id, id⟩⟩)))

section Opened

variable {s} {q : QueueId} {lim : Limits} (opened : (s.queue q).state = .opened lim)
include opened

theorem quiet_takeMessage (t : Agent) (p : Stored → Bool) {d : Stored}
    (found : (s.queue q).messages.find? p = some d) :
    QuietEvent s (takeMessage s t q p d) := by
  have mem : d ∈ (s.queue q).messages := List.mem_of_find?_eq_some found
  have one : ((s.queue q).messages.eraseP p).length + 1 = (s.queue q).messages.length := by
    rw [List.length_eraseP_of_mem mem (List.find?_some found)]
    have : 0 < (s.queue q).messages.length := List.length_pos_of_mem mem
    omega
  exact .after (quiet_setResult _ t _) (.after (quiet_deliver _ t d)
    (.of_store (.of_queue (q := q) rfl (.takes rfl List.eraseP_sublist one (.inl ⟨lim, opened⟩)
      rfl rfl)) rfl rfl))

theorem quiet_receiveBlocked (t : Agent) (mode : Mode) (label mask : Word) :
    QuietEvent s (receiveBlocked s t q mode label mask) := by
  unfold receiveBlocked
  split
  · exact quiet_refuse s t _
  · split
    · exact quiet_refuse s t _
    · exact .after (quiet_startWait _ t _ _)
        (quiet_setQueue s ⟨rfl, rfl, .inl ⟨lim, opened⟩⟩)

theorem quiet_receiveSearch (t : Agent) (mode : Mode) (label mask : Word) :
    QuietEvent s (receiveSearch s t q mode label mask) := by
  unfold receiveSearch
  split
  · next d found =>
    exact .after (quiet_admissionPass _) (quiet_takeMessage opened t _ found)
  · split
    · exact quiet_takeFromSender s t q _ _
    · exact quiet_receiveBlocked opened t mode label mask

end Opened

/-! ### Closing and purging -/

/-- Ending the waits leaves the queue records and the free count. -/
theorem foldl_endWait_frame (r : Result) (entries : List Agent) :
    (entries.foldl (fun s a => s.endWait a r) s).queues = s.queues ∧
    (entries.foldl (fun s a => s.endWait a r) s).freeCount = s.freeCount := by
  induction entries generalizing s with
  | nil => exact ⟨rfl, rfl⟩
  | cons a rest ih => exact ih (s.endWait a r)

/-- The waiting parties leave the queue, and nothing else of the store changes (R40). -/
theorem endWaiters_store (q : QueueId) (c : ResCode) :
    (endWaiters s q c).queues = s.queues.set q { s.queue q with receivers := [] } ∧
    (endWaiters s q c).freeCount = s.freeCount :=
  foldl_endWait_frame _ (.plain c) (s.waitersOf q)

theorem endWaiters_queue_self (q : QueueId) (c : ResCode) :
    (endWaiters s q c).queue q = { s.queue q with receivers := [] } := by
  rw [State.queue, (endWaiters_store s q c).1, Table.get_set_self]

theorem quiet_endWaiters (q : QueueId) (c : ResCode) : QuietEvent s (endWaiters s q c) :=
  .after (.foldl (fun s a => quiet_endWait s a _) _ _)
    (.after (quiet_setQueue _ ⟨rfl, rfl, .inr ⟨id, fun _ => rfl⟩⟩)
      (.of_store (.of_same rfl rfl) rfl rfl))

section Closing

variable {s} {q : QueueId} {lim : Limits}

theorem quiet_startPurge (closeAfter : Bool) (opened : (s.queue q).state = .opened lim)
    (nobody : (s.queue q).receivers = []) (holds : (s.queue q).messages ≠ []) :
    QuietEvent s (startPurge s q lim closeAfter) :=
  .after (quiet_addJob _ _) (.of_store (.of_queue (q := q) rfl
    (.purges lim closeAfter opened rfl rfl holds nobody rfl)) rfl rfl)

theorem quiet_closeOpened (opened : (s.queue q).state = .opened lim)
    (nobody : (s.queue q).receivers = []) : QuietEvent s (closeOpened s q lim) := by
  unfold closeOpened
  split
  · next empty =>
    have empty : (s.queue q).messages = [] := List.isEmpty_iff.mp empty
    exact .after (quiet_admissionPass _) (.of_store (.of_queue (q := q) rfl
      (.closes rfl empty rfl (fun _ => nobody) (by simp [closeRecord, Queue.held, empty]))) rfl rfl)
  · next holds => exact quiet_startPurge true opened nobody (by simpa using holds)

theorem discardHead_nil (empty : (s.queue q).messages = []) : discardHead s q = s := by
  simp only [discardHead, empty]

theorem discardHead_cons {d : Stored} {rest : List Stored}
    (messages : (s.queue q).messages = d :: rest) :
    discardHead s q =
      State.setQueue { s with freeCount := s.freeCount + 1 } q
        { s.queue q with messages := rest } := by
  simp only [discardHead, messages]

/-- The discard that leaves a queue without messages frees every slot that it held. -/
theorem discardHead_last (last : ((discardHead s q).queue q).messages = []) :
    discardHead s q =
      State.setQueue { s with freeCount := s.freeCount + (s.queue q).held } q
        { s.queue q with messages := [] } := by
  cases messages : (s.queue q).messages with
  | nil =>
    have same : { s.queue q with messages := [] } = s.queue q := by rw [← messages]
    rw [discardHead_nil messages, same, Queue.held, messages]
    exact (setQueue_get_self s q).symm
  | cons d rest =>
    rw [discardHead_cons messages, setQueue_queue_self] at last
    obtain rfl : rest = [] := last
    rw [discardHead_cons messages, Queue.held, messages]
    rfl

/-- A discard that leaves a message takes one slot's message. -/
theorem quiet_discardHead (more : ((discardHead s q).queue q).messages ≠ []) :
    QuietEvent s (discardHead s q) := by
  cases messages : (s.queue q).messages with
  | nil =>
    rw [discardHead_nil messages]
    exact .refl s
  | cons d rest =>
    rw [discardHead_cons messages, setQueue_queue_self] at more
    rw [discardHead_cons messages]
    exact .of_store (.of_queue (q := q) rfl (.takes rfl (by simp [messages])
      (by simp [Queue.held, messages]) (.inr more) rfl rfl)) rfl rfl

/-- The last discard and the end of the purge are one change: the queue closes, or is OPEN again (R143). -/
theorem quiet_endPurge {closeAfter : Bool}
    (purging : (s.queue q).state = .purging lim closeAfter)
    (last : ((discardHead s q).queue q).messages = []) :
    QuietEvent s (endPurge (discardHead s q) q lim closeAfter) := by
  rw [discardHead_last last, endPurge]
  split
  · refine .of_store (.of_queue (q := q) (k' := { s.queue q with
      messages := [], state := .closed, bound := none }) ?_
      (.closes rfl rfl rfl (fun lawful => ?_) rfl)) rfl rfl
    · simp [closeRecord]
    · obtain ⟨-, -, -, nobody⟩ := (Queue.lawful_iff_of_purging purging).mp lawful
      exact nobody
  · refine .of_store (.of_queue (q := q) (k' := { s.queue q with
      messages := [], state := .opened lim }) ?_
      (.reopens lim closeAfter purging rfl rfl rfl)) rfl rfl
    simp

theorem quiet_purgeQueue {closeAfter : Bool}
    (purging : (s.queue q).state = .purging lim closeAfter) :
    QuietEvent s (purgeQueue s q lim closeAfter) := by
  unfold purgeQueue
  dsimp only
  split
  · next last =>
    exact .after (quiet_endJob _)
      (.after (quiet_admissionPass _) (quiet_endPurge purging (List.isEmpty_iff.mp last)))
  · next more =>
    exact .after (quiet_admissionPass _) (quiet_discardHead (by simpa using more))

end Closing

/-! ### The reckoning of STORE_EMPTY -/

/-- A run of store changes at whose end STORE_EMPTY is set for the supervisor exactly when the whole brought the unreserved free count from above 0 to 0 (R31). -/
structure ReckonedEvent (s s' : State) : Prop where
  store : StoreEvent s s'
  storeEmpty : holdsNotice (s'.agent s.sup.tag).notices .storeEmpty = true ↔
    holdsNotice (s.agent s.sup.tag).notices .storeEmpty = true ∨
      0 < s.unreserved ∧ s'.unreserved = 0

variable {s} {s' u : State}

/-- An event that leaves the unreserved free count has nothing to reckon. -/
theorem QuietEvent.reckoned_of_same (quiet : QuietEvent s s')
    (same : s'.unreserved = s.unreserved) : ReckonedEvent s s' := by
  refine ⟨quiet.store, ?_⟩
  rw [quiet.storeEmpty, same]
  exact ⟨.inl, fun reckoned => reckoned.elim id fun ⟨above, zero⟩ => by omega⟩

theorem QuietEvent.reckoned (quiet : QuietEvent s u) :
    ReckonedEvent s (reckonStoreEmpty s u) := by
  obtain ⟨-, queues, free, -⟩ := reckonStoreEmpty_frame s u
  refine ⟨.after (.of_same queues free) quiet.store, ?_⟩
  rw [unreserved_congr free queues]
  by_cases fallen : 0 < s.unreserved ∧ u.unreserved = 0
  · rw [reckonStoreEmpty_of_fallen fallen, quiet.tag, setNotice_eq, setAgent_agent_self]
    simp [holdsNotice_or, holdsNotice_storeEmpty_bit_self, fallen]
  · rw [reckonStoreEmpty_of_not_fallen fallen, quiet.storeEmpty]
    simp [fallen]

theorem reckoned_refuse (t : Agent) (c : ResCode) : ReckonedEvent s (s.refuse t c) :=
  (quiet_refuse s t c).reckoned_of_same rfl

theorem reckoned_supResult (c : ResCode) : ReckonedEvent s (s.supResult c) :=
  (quiet_supResult s c).reckoned_of_same rfl

theorem reckoned_deny (t : Agent) (c : AgentCmd) (object : Nat) :
    ReckonedEvent s (s.deny t c object) := by
  obtain ⟨-, queues, free, -⟩ :=
    recordViolation_frame (s.refuse t .denied) t (.command c (BitVec.ofNat 6 object))
  exact (quiet_deny s t c object).reckoned_of_same (unreserved_congr free queues)

variable (s)

theorem reckoned_send (t : Agent) (q : QueueId) : ReckonedEvent s (send s t q) := by
  unfold send
  split
  · exact reckoned_refuse t _
  · split
    · exact reckoned_refuse t _
    · split
      · exact reckoned_deny t _ _
      · split
        · exact reckoned_refuse t _
        · exact reckoned_refuse t _
        · exact (quiet_sendOffer s t q _ _).reckoned

theorem reckoned_receive (t : Agent) (q : QueueId) : ReckonedEvent s (receive s t q) := by
  unfold receive
  split
  · exact reckoned_refuse t _
  · split
    · exact reckoned_deny t _ _
    · split
      · exact reckoned_deny t _ _
      · split
        · exact reckoned_refuse t _
        · exact reckoned_refuse t _
        · next opened => exact (quiet_receiveSearch opened t _ _ _).reckoned

/-- QUEUE_OPEN passes its checks only with lawful limits and a reserve that the unreserved slots cover (R39). -/
theorem reckoned_queueOpen (q : QueueId) : ReckonedEvent s (queueOpen s q) := by
  unfold queueOpen
  split
  · exact reckoned_supResult _
  · next closed =>
    have closed : (s.queue q).state = .closed := not_not.mp closed
    dsimp only
    split
    · exact reckoned_supResult _
    · next limits =>
      have limits : Limits.lawful
          { capacity := (s.supOperand 1).toNat, reserve := (s.supOperand 2).toNat } = true := by
        rw [Limits.lawful_iff]
        simp only [Config.slots, not_or, not_lt] at limits
        dsimp only
        omega
      split
      · exact reckoned_supResult _
      · next room =>
        exact QuietEvent.reckoned (.after (quiet_supResult _ _) (.of_store (.of_queue (q := q) rfl
          (.opens _ closed rfl limits (not_lt.mp room) rfl rfl)) rfl rfl))

/-- A change of one queue record that keeps its unused reserve keeps the unreserved free count. -/
theorem unreserved_setQueue_of_same {q : QueueId} {k : Queue}
    (same : k.unusedReserve = (s.queue q).unusedReserve) :
    (s.setQueue q k).unreserved = s.unreserved := by
  have sum := Table.sum_set s.queues q k Queue.unusedReserve
  rw [same] at sum
  have sum : (s.queues.set q k).sum Queue.unusedReserve = s.queues.sum Queue.unusedReserve :=
    Nat.add_right_cancel sum
  rw [State.unreserved, State.unreserved, setQueue_freeCount, setQueue_queues, sum]

theorem endWaiters_unreserved (q : QueueId) (c : ResCode) :
    (endWaiters s q c).unreserved = s.unreserved := by
  obtain ⟨queues, free⟩ := endWaiters_store s q c
  exact (unreserved_congr (t := s.setQueue q { s.queue q with receivers := [] }) free queues).trans
    (unreserved_setQueue_of_same s (Queue.unusedReserve_congr rfl rfl))

theorem startPurge_unreserved {q : QueueId} {lim : Limits}
    (opened : (s.queue q).state = .opened lim) (closeAfter : Bool) :
    (startPurge s q lim closeAfter).unreserved = s.unreserved := by
  refine (unreserved_congr rfl rfl).trans
    (unreserved_setQueue_of_same s (k := { s.queue q with state := .purging lim closeAfter }) ?_)
  rw [Queue.unusedReserve_of_opened opened, Queue.unusedReserve_of_purging rfl]
  rfl

theorem reckoned_queueClose (q : QueueId) : ReckonedEvent s (queueClose s q) := by
  unfold queueClose
  split
  · exact reckoned_supResult _
  · next lim b purging =>
    refine QuietEvent.reckoned_of_same (.after (quiet_supResult _ _) (.of_store (.of_queue (q := q)
      rfl (.marks lim b true purging rfl rfl rfl rfl)) rfl rfl)) ?_
    refine (unreserved_congr rfl rfl).trans (unreserved_setQueue_of_same s ?_)
    rw [Queue.unusedReserve_of_purging purging, Queue.unusedReserve_of_purging rfl]
    rfl
  · next lim opened =>
    have record := endWaiters_queue_self s q .closed
    exact QuietEvent.reckoned (.after (quiet_supResult _ _)
      (.after (quiet_closeOpened (by rw [record]; exact opened) (by rw [record]))
        (quiet_endWaiters s q .closed)))

/-- Neither the end of the waits nor the start of a purge moves the unreserved free count, so QUEUE_PURGE has nothing to reckon (R31). -/
theorem reckoned_queuePurge (q : QueueId) : ReckonedEvent s (queuePurge s q) := by
  unfold queuePurge
  split
  · exact reckoned_supResult _
  · exact reckoned_supResult _
  · next lim opened =>
    have record := endWaiters_queue_self s q .purging
    split
    · exact QuietEvent.reckoned_of_same
        (.after (quiet_supResult _ _) (quiet_endWaiters s q .purging))
        ((unreserved_congr rfl rfl).trans (endWaiters_unreserved s q .purging))
    · next holds =>
      have opened : ((endWaiters s q .purging).queue q).state = .opened lim := by
        rw [record]; exact opened
      exact QuietEvent.reckoned_of_same
        (.after (quiet_supResult _ _)
          (.after (quiet_startPurge false opened (by rw [record])
            (by rw [record]; simpa using holds)) (quiet_endWaiters s q .purging)))
        (((unreserved_congr rfl rfl).trans (startPurge_unreserved _ opened false)).trans
          (endWaiters_unreserved s q .purging))

theorem reckoned_purgeStep : ReckonedEvent s (purgeStep s) := by
  unfold purgeStep
  split
  · split
    · next purging => exact (quiet_purgeQueue purging).reckoned
    · exact (QuietEvent.refl s).reckoned_of_same rfl
  · exact (QuietEvent.refl s).reckoned_of_same rfl

end Sys2Proof.Machine

/-! What each command does, apart from how its cycle ends: one name for the access of a bus cycle, the event of a block and the change of a pin. -/

namespace Sys2Proof.Machine

/-- What a command does when a running part takes it. -/
def effectOf (c : Instr) (s : State) : State :=
  match c with
  | .attach t => attachCommand s t
  | .detach t => detachCommand s t
  | .cancel t => cancelCommand s t
  | .acquire t => acquireCommand s t
  | .release t => releaseCommand s t
  | .renew t => renewCommand s t
  | .send t => sendCommand s t
  | .receive t => receiveCommand s t
  | .bind t => bindCommand s t
  | .unbind t => unbindCommand s t
  | .watch t => watchCommand s t
  | .unwatch t => unwatchCommand s t
  | .lockConfig => lockConfigCommand s
  | .queueOpen => queueOpenCommand s
  | .queueClose => queueCloseCommand s
  | .queuePurge => queuePurgeCommand s
  | .retire => retireCommand s
  | .quiesce => setQuiesce s true
  | .resume => setQuiesce s false
  | .ackViolation => ackViolation s
  | .clear => clearPart s
  | .noteRead t => clearNotices s t
  | .nenWrite t v => writeEnable s t v
  | .tickloRead t => latchTick s t
  | .tickhiRead t => unlatchTick s t
  | .tickdivWrite v => writeTickdiv s v
  | .supervisorPageWriteDenied t off v => busWrite s t off v
  | .registerWrite t off v => busWrite s t off v
  | .reset => enterReset s
  | .resetRelease straps => releaseReset s straps
  | .freezeAssert => setFreeze s true
  | .freezeRelease => setFreeze s false
  | .tick => timeEvent s TimeBase.tick
  | .leaseCountdown => lockTableTick s
  | .leaseExpiry l => if s.leaseEnding l then lockTableTick s else s
  | .deadlineCountdown => agentPortsTick s
  | .deadlineExpiry a => if s.deadlineEnding a then agentPortsTick s else s
  | .lockSweepStep => lockSweepStep s
  | .queueSweepStep => queueSweepStep s
  | .purgeStep => purgeStep s
  | .refclkPeriodCounted => timeEvent s TimeBase.period
  | .unknownAgentCommandCode t code => writeCmd s t code
  | .unknownSupervisorCommandCode code => writeScmd s code

/-- How a command with the effect `after` ends: it is dropped or not answered by a part in reset, or it is taken, and a bus cycle is then answered. -/
inductive Ending (s after : State) : State → Prop
  | dropped : Ending s after s
  | unanswered : Ending s after s.unanswered
  | taken : Ending s after after
  | answered (data : Option Word) : Ending s after (after.answerCycle data)

variable {s s' : State}

theorem Ending.of_writeCycle {access : State → State} (run : writeCycle s access = .next s') :
    Ending s (access s) s' := by
  rcases writeCycle_next run with rfl | rfl
  · exact .unanswered
  · exact .answered none

theorem Ending.of_readCycle {value : State → Word} {access : State → State}
    (run : readCycle s value access = .next s') : Ending s (access s) s' := by
  rcases readCycle_next run with rfl | rfl
  · exact .unanswered
  · exact .answered (some (value s))

theorem Ending.of_blockEvent {event : State → State} (run : blockEvent s event = .next s') :
    Ending s (event s) s' := by
  rcases blockEvent_next run with rfl | rfl
  · exact .dropped
  · exact .taken

/-- A change of a pin is taken whether or not the part is in reset. -/
theorem Ending.of_pinChange {after : State}
    (run : (.next after : Host.Outcome State Fault Refusal) = .next s') : Ending s after s' :=
  Host.Outcome.next.inj run ▸ .taken

/-- Every command ends in one of the four ways with its effect. -/
theorem exec_ending {c : Instr} (run : exec c s = .next s') : Ending s (effectOf c s) s' := by
  cases c with
  | noteRead t =>
    rw [exec_noteRead] at run
    exact .of_readCycle run
  | tickloRead t =>
    rw [exec_tickloRead] at run
    exact .of_readCycle run
  | tickhiRead t =>
    rw [exec_tickhiRead] at run
    exact .of_readCycle run
  | reset | resetRelease | freezeAssert | freezeRelease => exact .of_pinChange run
  | tick | refclkPeriodCounted | leaseCountdown | leaseExpiry | deadlineCountdown | deadlineExpiry
    | lockSweepStep | queueSweepStep | purgeStep => exact .of_blockEvent run
  | _ => exact .of_writeCycle run

/-! ### The common checks, for any property of the state after them -/

variable {P : State → Prop} {t : Agent}

theorem acceptCommand_induct {c : Option AgentCmd} {owner : State → State}
    (refused : ∀ code, P (s.refuse t code)) (accepted : P (owner s)) :
    P (acceptCommand s t c owner) := by
  rcases acceptCommand_cases s t c owner with ⟨code, eq⟩ | ⟨-, eq⟩
  · exact eq ▸ refused code
  · exact eq ▸ accepted

theorem withLock_induct {f : LockId → State} (refused : P (s.refuse t .badObject))
    (each : ∀ l, P (f l)) : P (withLock s t f) := by
  unfold withLock
  split
  · exact each _
  · exact refused

theorem withQueue_induct {f : QueueId → State} (refused : P (s.refuse t .badObject))
    (each : ∀ q, P (f q)) : P (withQueue s t f) := by
  unfold withQueue
  split
  · exact each _
  · exact refused

theorem withSupObject_induct {n : Nat} {f : Fin n → State} (refused : P (s.supResult .badObject))
    (each : ∀ x, P (f x)) : P (withSupObject s n f) := by
  unfold withSupObject
  split
  · exact each _
  · exact refused

end Sys2Proof.Machine

/-! Every command is a run of store changes, and those that move messages reckon STORE_EMPTY: the statements about the store follow. -/

namespace Sys2Proof.Machine

variable (s : State)

/-! ### The commands that move messages -/

theorem reckoned_sendCommand (t : Agent) : ReckonedEvent s (sendCommand s t) :=
  acceptCommand_induct (reckoned_refuse t)
    (withQueue_induct (reckoned_refuse t _) (reckoned_send s t))

theorem reckoned_receiveCommand (t : Agent) : ReckonedEvent s (receiveCommand s t) :=
  acceptCommand_induct (reckoned_refuse t)
    (withQueue_induct (reckoned_refuse t _) (reckoned_receive s t))

theorem reckoned_queueOpenCommand : ReckonedEvent s (queueOpenCommand s) :=
  withSupObject_induct (reckoned_supResult _) (reckoned_queueOpen s)

theorem reckoned_queueCloseCommand : ReckonedEvent s (queueCloseCommand s) :=
  withSupObject_induct (reckoned_supResult _) (reckoned_queueClose s)

theorem reckoned_queuePurgeCommand : ReckonedEvent s (queuePurgeCommand s) :=
  withSupObject_induct (reckoned_supResult _) (reckoned_queuePurge s)

/-- A part in reset has no event to reckon, and the answer of the cycle changes no count. -/
theorem ReckonedEvent.of_ending {s after s' : State} (event : ReckonedEvent s after)
    (ending : Ending s after s') : ReckonedEvent s s' := by
  have reckoned : ReckonedEvent s s := (QuietEvent.refl s).reckoned_of_same rfl
  cases ending with
  | dropped => exact reckoned
  | unanswered => exact ReckonedEvent.mk (.of_same rfl rfl) reckoned.storeEmpty
  | taken => exact event
  | answered data => exact ⟨event.store.then_same rfl rfl, event.storeEmpty⟩

/-- Settles O35: the six events of the store end in the reckoning, or leave the unreserved free count. -/
theorem storeEmptyOnFallToZero : Obligations.StoreEmptyOnFallToZero := by
  intro c t s s' run storeEvent
  have reckoned : ReckonedEvent s (effectOf c s) := by
    simp only [List.mem_cons, List.not_mem_nil, or_false] at storeEvent
    rcases storeEvent with rfl | rfl | rfl | rfl | rfl | rfl
    · exact reckoned_sendCommand s t
    · exact reckoned_receiveCommand s t
    · exact reckoned_queueOpenCommand s
    · exact reckoned_queueCloseCommand s
    · exact reckoned_queuePurgeCommand s
    · exact reckoned_purgeStep s
  exact (reckoned.of_ending (exec_ending run)).storeEmpty

/-! ### The commands that leave the messages -/

theorem storeEvent_refuse (t : Agent) (c : ResCode) : StoreEvent s (s.refuse t c) :=
  .of_same rfl rfl

theorem storeEvent_deny (t : Agent) (c : AgentCmd) (object : Nat) :
    StoreEvent s (s.deny t c object) :=
  (quiet_deny s t c object).store

/-- The agent leaves its wait list: a receiver's entry is the one that a queue record holds. -/
theorem storeEvent_leaveWaitList (a : Agent) : StoreEvent s (s.leaveWaitList a) := by
  unfold State.leaveWaitList
  split
  · split
    · exact .of_same rfl rfl
    · exact .of_same rfl rfl
    · exact storeEvent_setQueue ⟨rfl, rfl, .inr ⟨id, fun nobody => by simp [nobody]⟩⟩
  · exact .refl

theorem storeEvent_passLock (l : LockId) (lost : Bool) : StoreEvent s (passLock s l lost) := by
  obtain ⟨queues, free, -⟩ := passLock_frame s l lost
  exact .of_same queues free

theorem storeEvent_acquireNested (t : Agent) (l : LockId) (h : Hold) :
    StoreEvent s (acquireNested s t l h) := by
  unfold acquireNested
  split <;> exact .of_same rfl rfl

theorem storeEvent_acquireWait (t : Agent) (l : LockId) (h : Hold) :
    StoreEvent s (acquireWait s t l h) := by
  unfold acquireWait
  split
  · exact storeEvent_refuse s t _
  · split <;> exact .of_same rfl rfl

theorem storeEvent_acquire (t : Agent) (l : LockId) : StoreEvent s (acquire s t l) := by
  unfold acquire
  split
  · exact storeEvent_refuse s t _
  · split
    · exact storeEvent_deny s t _ _
    · split
      · exact .of_same rfl rfl
      · split
        · exact storeEvent_acquireNested s t l _
        · split
          · exact storeEvent_refuse s t _
          · exact storeEvent_acquireWait s t l _

theorem storeEvent_release (t : Agent) (l : LockId) : StoreEvent s (release s t l) := by
  unfold release
  split
  · exact storeEvent_refuse s t _
  · split
    · exact storeEvent_refuse s t _
    · split
      · exact .of_same rfl rfl
      · exact (storeEvent_passLock s l false).then_same rfl rfl

theorem storeEvent_renew (t : Agent) (l : LockId) : StoreEvent s (renew s t l) := by
  unfold renew
  split
  · exact storeEvent_refuse s t _
  · split <;> exact .of_same rfl rfl

theorem storeEvent_lockConfig (l : LockId) : StoreEvent s (lockConfig s l) := by
  unfold lockConfig
  split <;> exact .of_same rfl rfl

theorem storeEvent_attach (t : Agent) : StoreEvent s (attach s t) := by
  unfold attach
  split
  · split
    · exact .of_same rfl rfl
    · exact storeEvent_deny s t _ _
  · exact .of_same rfl rfl

/-- A binding dropped is a party gone, at each queue that had it (R45). -/
theorem storeEvent_dropBindings (a : Agent) : StoreEvent s (s.dropBindings a) := by
  refine .single <| .parties (fun q => ?_) rfl
  have record : (s.dropBindings a).queue q =
      if (s.queue q).bound = some a then { s.queue q with bound := none } else s.queue q :=
    Table.get_map _ _ q
  rw [record]
  split
  · exact ⟨rfl, rfl, .inr ⟨fun _ => rfl, id⟩⟩
  · exact .refl _

theorem storeEvent_detach (t : Agent) : StoreEvent s (detach s t) := by
  unfold detach
  split
  · exact storeEvent_refuse s t _
  · exact (storeEvent_dropBindings s t).then_same rfl rfl

theorem storeEvent_cancel (t : Agent) : StoreEvent s (cancel s t) := by
  unfold cancel
  split
  · exact (storeEvent_leaveWaitList s t).then_same rfl rfl
  · exact storeEvent_refuse s t _

theorem storeEvent_bindQueue (t : Agent) (q : QueueId) : StoreEvent s (bindQueue s t q) := by
  unfold bindQueue
  split
  · exact storeEvent_deny s t _ _
  · split
    · exact storeEvent_refuse s t _
    · exact storeEvent_refuse s t _
    · next lim opened =>
      split
      · split <;> exact .of_same rfl rfl
      · split
        · have bound : StoreEvent s (s.setQueue q { s.queue q with bound := some t }) :=
            storeEvent_setQueue ⟨rfl, rfl, .inl ⟨lim, opened⟩⟩
          exact bound.then_same rfl rfl
        · exact storeEvent_refuse s t _

theorem storeEvent_unbindQueue (t : Agent) (q : QueueId) :
    StoreEvent s (unbindQueue s t q) := by
  unfold unbindQueue
  split
  · have unbound : StoreEvent s (s.setQueue q { s.queue q with bound := none }) :=
      storeEvent_setQueue ⟨rfl, rfl, .inr ⟨fun _ => rfl, id⟩⟩
    exact unbound.then_same rfl rfl
  · exact storeEvent_deny s t _ _

theorem storeEvent_watchQueue (t : Agent) (q : QueueId) : StoreEvent s (watchQueue s t q) := by
  unfold watchQueue
  split
  · exact storeEvent_deny s t _ _
  · split
    · exact storeEvent_refuse s t _
    · split <;> exact .of_same rfl rfl

theorem storeEvent_unwatchQueue (t : Agent) (q : QueueId) :
    StoreEvent s (unwatchQueue s t q) := by
  unfold unwatchQueue
  split <;> exact .of_same rfl rfl

theorem storeEvent_acceptRetire (a : Agent) : StoreEvent s (acceptRetire s a) :=
  (storeEvent_leaveWaitList s a).then_same rfl rfl

theorem storeEvent_retire (a : Agent) : StoreEvent s (retire s a) := by
  unfold retire
  split
  · exact .of_same rfl rfl
  · exact .of_same rfl rfl
  · exact (storeEvent_acceptRetire s a).then_same rfl rfl
  · exact (storeEvent_acceptRetire s a).then_same rfl rfl

theorem storeEvent_ite {p : Prop} [Decidable p] {u : State} (taken : StoreEvent s u) :
    StoreEvent s (if p then u else s) := by
  split
  · exact taken
  · exact .refl

theorem storeEvent_lockSweepStep : StoreEvent s (lockSweepStep s) := by
  unfold lockSweepStep
  split
  · next r c _ =>
    have sweep : StoreEvent s
        (if (s.lock c).hold.any (fun h => h.holder == r) then loseLock s c else s) :=
      storeEvent_ite s (storeEvent_passLock s c true)
    dsimp only
    split <;> exact sweep.then_same rfl rfl
  · exact .refl

theorem storeEvent_queueSweepStep : StoreEvent s (queueSweepStep s) := by
  unfold queueSweepStep
  split
  · next r c _ =>
    have sweep : StoreEvent s
        (if (s.queue c).bound = some r then s.setQueue c { s.queue c with bound := none }
          else s) :=
      storeEvent_ite s (storeEvent_setQueue ⟨rfl, rfl, .inr ⟨fun _ => rfl, id⟩⟩)
    dsimp only
    split <;> exact sweep.then_same rfl rfl
  · exact .refl

/-! ### Ticks, the pins and CLEAR -/

theorem StoreEvent.foldl {β : Type} {f : State → β → State} (each : ∀ s b, StoreEvent s (f s b))
    (entries : List β) (s : State) : StoreEvent s (entries.foldl f s) := by
  induction entries generalizing s with
  | nil => exact .refl
  | cons b rest ih => exact .after (ih (f s b)) (each s b)

theorem storeEvent_timeEvent (f : TimeBase → TimeBase) : StoreEvent s (timeEvent s f) := by
  unfold timeEvent
  split <;> exact .of_same rfl rfl

theorem storeEvent_tickLock (l : LockId) : StoreEvent s (tickLock s l) := by
  obtain ⟨queues, free, -⟩ := tickLock_frame s l
  exact .of_same queues free

theorem storeEvent_lockTableTick : StoreEvent s (lockTableTick s) := by
  unfold lockTableTick
  split
  · exact .refl
  · exact .after (.foldl storeEvent_tickLock _ _) (.of_same rfl rfl)

theorem storeEvent_tickPort (a : Agent) : StoreEvent s (tickPort s a) := by
  unfold tickPort
  split
  · split
    · exact .refl
    · split
      · exact .of_same rfl rfl
      · exact (storeEvent_leaveWaitList s a).then_same rfl rfl
  · exact .refl

theorem storeEvent_agentPortsTick : StoreEvent s (agentPortsTick s) := by
  unfold agentPortsTick
  split
  · exact .refl
  · exact .after (.foldl storeEvent_tickPort _ _) (.of_same rfl rfl)

theorem storeEvent_releaseReset (straps : Agent) : StoreEvent s (releaseReset s straps) :=
  storeEvent_ite s (.of_same rfl rfl)

theorem storeEvent_enterReset : StoreEvent s (enterReset s) :=
  .single (.wiped rfl rfl)

theorem storeEvent_clearPart : StoreEvent s (clearPart s) :=
  .single (.wiped rfl rfl)

/-! ### The commands as the bus brings them -/

section Commands

variable (t : Agent)

theorem storeEvent_attachCommand : StoreEvent s (attachCommand s t) :=
  acceptCommand_induct (storeEvent_refuse s t) (storeEvent_attach s t)

theorem storeEvent_detachCommand : StoreEvent s (detachCommand s t) :=
  acceptCommand_induct (storeEvent_refuse s t) (storeEvent_detach s t)

theorem storeEvent_cancelCommand : StoreEvent s (cancelCommand s t) :=
  acceptCommand_induct (storeEvent_refuse s t) (storeEvent_cancel s t)

theorem storeEvent_acquireCommand : StoreEvent s (acquireCommand s t) :=
  acceptCommand_induct (storeEvent_refuse s t)
    (withLock_induct (storeEvent_refuse s t _) (storeEvent_acquire s t))

theorem storeEvent_releaseCommand : StoreEvent s (releaseCommand s t) :=
  acceptCommand_induct (storeEvent_refuse s t)
    (withLock_induct (storeEvent_refuse s t _) (storeEvent_release s t))

theorem storeEvent_renewCommand : StoreEvent s (renewCommand s t) :=
  acceptCommand_induct (storeEvent_refuse s t)
    (withLock_induct (storeEvent_refuse s t _) (storeEvent_renew s t))

theorem storeEvent_bindCommand : StoreEvent s (bindCommand s t) :=
  acceptCommand_induct (storeEvent_refuse s t)
    (withQueue_induct (storeEvent_refuse s t _) (storeEvent_bindQueue s t))

theorem storeEvent_unbindCommand : StoreEvent s (unbindCommand s t) :=
  acceptCommand_induct (storeEvent_refuse s t)
    (withQueue_induct (storeEvent_refuse s t _) (storeEvent_unbindQueue s t))

theorem storeEvent_watchCommand : StoreEvent s (watchCommand s t) :=
  acceptCommand_induct (storeEvent_refuse s t)
    (withQueue_induct (storeEvent_refuse s t _) (storeEvent_watchQueue s t))

theorem storeEvent_unwatchCommand : StoreEvent s (unwatchCommand s t) :=
  acceptCommand_induct (storeEvent_refuse s t)
    (withQueue_induct (storeEvent_refuse s t _) (storeEvent_unwatchQueue s t))

theorem storeEvent_writeCmd (code : Word) : StoreEvent s (writeCmd s t code) := by
  unfold writeCmd
  split
  · exact acceptCommand_induct (storeEvent_refuse s t) .refl
  · exact storeEvent_attachCommand s t
  · exact storeEvent_detachCommand s t
  · exact storeEvent_cancelCommand s t
  · exact storeEvent_acquireCommand s t
  · exact storeEvent_releaseCommand s t
  · exact storeEvent_renewCommand s t
  · exact (reckoned_sendCommand s t).store
  · exact (reckoned_receiveCommand s t).store
  · exact storeEvent_bindCommand s t
  · exact storeEvent_unbindCommand s t
  · exact storeEvent_watchCommand s t
  · exact storeEvent_unwatchCommand s t

end Commands

theorem storeEvent_lockConfigCommand : StoreEvent s (lockConfigCommand s) :=
  withSupObject_induct (.of_same rfl rfl) (storeEvent_lockConfig s)

theorem storeEvent_retireCommand : StoreEvent s (retireCommand s) :=
  withSupObject_induct (.of_same rfl rfl) (storeEvent_retire s)

theorem storeEvent_writeScmd (code : Word) : StoreEvent s (writeScmd s code) := by
  unfold writeScmd
  split
  · exact .of_same rfl rfl
  · exact storeEvent_lockConfigCommand s
  · exact (reckoned_queueOpenCommand s).store
  · exact (reckoned_queueCloseCommand s).store
  · exact (reckoned_queuePurgeCommand s).store
  · exact storeEvent_retireCommand s
  · exact .of_same rfl rfl
  · exact .of_same rfl rfl
  · exact .of_same rfl rfl
  · exact storeEvent_clearPart s

/-- On the agent page only a write of CMD reaches the store. -/
theorem storeEvent_writeAgentReg (t : Agent) (r : AgentReg) (v : Word) :
    StoreEvent s (writeAgentReg s t r v) := by
  unfold writeAgentReg
  split
  · exact storeEvent_writeCmd s t v
  all_goals exact .of_same rfl rfl

/-- On the supervisor page only a write of SCMD reaches the store. -/
theorem storeEvent_writeSupReg (r : SupReg) (v : Word) : StoreEvent s (writeSupReg s r v) := by
  unfold writeSupReg
  split
  · exact storeEvent_writeScmd s v
  all_goals exact .of_same rfl rfl

theorem storeEvent_busWrite (t : Agent) (off : Offset) (v : Word) :
    StoreEvent s (busWrite s t off v) := by
  unfold busWrite
  split
  · split
    · exact storeEvent_writeSupReg s _ v
    · exact (quiet_recordViolation s t _).store
  · exact storeEvent_writeAgentReg s t _ v

/-- Every command is a run of store changes. -/
theorem storeEvent_effectOf (c : Instr) : StoreEvent s (effectOf c s) := by
  cases c with
  | attach t => exact storeEvent_attachCommand s t
  | detach t => exact storeEvent_detachCommand s t
  | cancel t => exact storeEvent_cancelCommand s t
  | acquire t => exact storeEvent_acquireCommand s t
  | release t => exact storeEvent_releaseCommand s t
  | renew t => exact storeEvent_renewCommand s t
  | send t => exact (reckoned_sendCommand s t).store
  | receive t => exact (reckoned_receiveCommand s t).store
  | bind t => exact storeEvent_bindCommand s t
  | unbind t => exact storeEvent_unbindCommand s t
  | watch t => exact storeEvent_watchCommand s t
  | unwatch t => exact storeEvent_unwatchCommand s t
  | lockConfig => exact storeEvent_lockConfigCommand s
  | queueOpen => exact (reckoned_queueOpenCommand s).store
  | queueClose => exact (reckoned_queueCloseCommand s).store
  | queuePurge => exact (reckoned_queuePurgeCommand s).store
  | retire => exact storeEvent_retireCommand s
  | quiesce | resume | ackViolation => exact .of_same rfl rfl
  | clear => exact storeEvent_clearPart s
  | noteRead t | nenWrite t v | tickloRead t | tickhiRead t => exact .of_same rfl rfl
  | tickdivWrite v => exact .of_same rfl rfl
  | supervisorPageWriteDenied t off v | registerWrite t off v => exact storeEvent_busWrite s t off v
  | reset => exact storeEvent_enterReset s
  | resetRelease straps => exact storeEvent_releaseReset s straps
  | freezeAssert | freezeRelease => exact .of_same rfl rfl
  | tick | refclkPeriodCounted => exact storeEvent_timeEvent s _
  | leaseCountdown => exact storeEvent_lockTableTick s
  | leaseExpiry l => exact storeEvent_ite s (storeEvent_lockTableTick s)
  | deadlineCountdown => exact storeEvent_agentPortsTick s
  | deadlineExpiry a => exact storeEvent_ite s (storeEvent_agentPortsTick s)
  | lockSweepStep => exact storeEvent_lockSweepStep s
  | queueSweepStep => exact storeEvent_queueSweepStep s
  | purgeStep => exact (reckoned_purgeStep s).store
  | unknownAgentCommandCode t code => exact storeEvent_writeCmd s t code
  | unknownSupervisorCommandCode code => exact storeEvent_writeScmd s code

theorem exec_storeEvent {s s' : State} {c : Instr} (run : exec c s = .next s') :
    StoreEvent s s' := by
  have effect := storeEvent_effectOf s c
  cases exec_ending run with
  | dropped => exact .refl
  | unanswered => exact .of_same rfl rfl
  | taken => exact effect
  | answered data => exact effect.then_same rfl rfl

/-- Settles O57: every change to the store keeps the queue records lawful and the counts balanced. -/
theorem everyStepKeepsStoreCounts : Obligations.EveryStepKeepsStoreCounts :=
  fun _ _ lawful store run => step_keeps_of_exec (P := fun s => QueuesLawful s ∧ StoreLaw s)
    (fun _ _ laws => laws)
    (fun _ _ _ ⟨lawful, store⟩ run => (exec_storeEvent run).storeLaws lawful store)
    ⟨lawful, store⟩ run

/-- Settles O58: the one change that adds a message places it, and the others only remove. -/
theorem everyStepKeepsUrgentFirst : Obligations.EveryStepKeepsUrgentFirst :=
  fun _ _ order run => step_keeps_of_exec (fun _ _ order => order)
    (fun _ _ _ order run => (exec_storeEvent run).orderLaw order) order run

end Sys2Proof.Machine

/-! The commands of the Queue Table, case by case (sections 2.5 and 2.6), and the statements about them. -/

namespace Sys2Proof.Machine

variable {s : State} {t : Agent} {q : QueueId}

/-! ### A command that reaches the Queue Table -/

/-- An ATTACHED agent's BIND of a queue that there is goes to the Queue Table (R108). -/
theorem exec_bind_ready (ready : Ready s t) (named : NamesQueue s t q) :
    exec (.bind t) s = .next (bindQueue s t q).answerWrite := by
  obtain ⟨running, attached⟩ := ready
  rw [exec_bind, writeCycle_running s _ running, bindCommand,
    acceptCommand_attached s _ _ attached, withQueue_named s _ named]

theorem exec_unbind_ready (ready : Ready s t) (named : NamesQueue s t q) :
    exec (.unbind t) s = .next (unbindQueue s t q).answerWrite := by
  obtain ⟨running, attached⟩ := ready
  rw [exec_unbind, writeCycle_running s _ running, unbindCommand,
    acceptCommand_attached s _ _ attached, withQueue_named s _ named]

theorem exec_watch_ready (ready : Ready s t) (named : NamesQueue s t q) :
    exec (.watch t) s = .next (watchQueue s t q).answerWrite := by
  obtain ⟨running, attached⟩ := ready
  rw [exec_watch, writeCycle_running s _ running, watchCommand,
    acceptCommand_attached s _ _ attached, withQueue_named s _ named]

theorem exec_unwatch_ready (ready : Ready s t) (named : NamesQueue s t q) :
    exec (.unwatch t) s = .next (unwatchQueue s t q).answerWrite := by
  obtain ⟨running, attached⟩ := ready
  rw [exec_unwatch, writeCycle_running s _ running, unwatchCommand,
    acceptCommand_attached s _ _ attached, withQueue_named s _ named]

theorem exec_queueOpen_running (running : Running s) :
    exec .queueOpen s = .next (withSupObject s 32 (queueOpen s)).answerWrite :=
  (exec_queueOpen s).trans (writeCycle_running s _ running)

theorem exec_queueClose_running (running : Running s) :
    exec .queueClose s = .next (withSupObject s 32 (queueClose s)).answerWrite :=
  (exec_queueClose s).trans (writeCycle_running s _ running)

theorem exec_queuePurge_running (running : Running s) :
    exec .queuePurge s = .next (withSupObject s 32 (queuePurge s)).answerWrite :=
  (exec_queuePurge s).trans (writeCycle_running s _ running)

/-! ### QUEUE_OPEN -/

theorem queueOpen_in_use (inUse : (s.queue q).state ≠ .closed) :
    queueOpen s q = s.supResult .inUse :=
  if_pos inUse

section Closed

variable (closed : (s.queue q).state = .closed)
include closed

theorem queueOpen_bad_limits
    (bad : s.supOperand 1 = 0 ∨ 256 < (s.supOperand 1).toNat ∨
      (s.supOperand 1).toNat < (s.supOperand 2).toNat) :
    queueOpen s q = s.supResult .badOperand := by
  have bad : (s.supOperand 1).toNat = 0 ∨ Config.slots < (s.supOperand 1).toNat ∨
      (s.supOperand 1).toNat < (s.supOperand 2).toNat :=
    bad.imp_left fun zero => by simp [zero]
  simp only [queueOpen, closed, ne_eq, not_true_eq_false, if_false, if_pos bad]

variable (nonzero : s.supOperand 1 ≠ 0) (capacity : (s.supOperand 1).toNat ≤ 256)
  (reserve : (s.supOperand 2).toNat ≤ (s.supOperand 1).toNat)
include nonzero capacity reserve

/-- With limits in range the room for the reserve decides (R39). -/
theorem queueOpen_good_limits :
    queueOpen s q =
      if s.unreserved < (s.supOperand 2).toNat then s.supResult .noRoom
      else
        reckonStoreEmpty s ((s.setQueue q (openedQueue
          { capacity := (s.supOperand 1).toNat, reserve := (s.supOperand 2).toNat }
          (s.supOperand 3) (s.supOperand 4))).supResult .done) := by
  have positive : (s.supOperand 1).toNat ≠ 0 := fun zero => nonzero (BitVec.eq_of_toNat_eq zero)
  have good : ¬ ((s.supOperand 1).toNat = 0 ∨ Config.slots < (s.supOperand 1).toNat ∨
      (s.supOperand 1).toNat < (s.supOperand 2).toNat) := by
    simp only [Config.slots]
    omega
  simp only [queueOpen, closed, ne_eq, not_true_eq_false, if_false, if_neg good]

end Closed

/-- Settles O34: the number, the state, the limits and the room are judged in this order. -/
theorem queueOpenChecksAndOpens : Obligations.QueueOpenChecksAndOpens := by
  intro s running
  rw [exec_queueOpen_running running]
  refine ⟨fun above => ?_, fun q named => ?_⟩
  · rw [withSupObject_out_of_range s _ above]
  · rw [withSupObject_named s _ named]
    refine ⟨fun inUse => ?_, fun closed => ⟨fun bad => ?_, fun nonzero capacity reserve => ?_⟩⟩
    · rw [queueOpen_in_use inUse]
    · rw [queueOpen_bad_limits closed bad]
    · rw [queueOpen_good_limits closed nonzero capacity reserve]
      refine ⟨fun noRoom => ?_, fun room => ?_⟩
      · rw [if_pos noRoom]
      · rw [if_neg (not_lt.mpr room)]
        rfl

/-! ### QUEUE_CLOSE and QUEUE_PURGE -/

theorem queueClose_of_closed (closed : (s.queue q).state = .closed) :
    queueClose s q = s.supResult .done := by
  simp only [queueClose, closed]

theorem queueClose_of_purging {lim : Limits} {b : Bool}
    (purging : (s.queue q).state = .purging lim b) :
    queueClose s q =
      (s.setQueue q { s.queue q with state := .purging lim true }).supResult .done := by
  simp only [queueClose, purging]

theorem queueClose_of_opened {lim : Limits} (opened : (s.queue q).state = .opened lim) :
    queueClose s q =
      reckonStoreEmpty s ((closeOpened (endWaiters s q .closed) q lim).supResult .done) := by
  simp only [queueClose, opened]

theorem queuePurge_of_closed (closed : (s.queue q).state = .closed) :
    queuePurge s q = s.supResult .closed := by
  simp only [queuePurge, closed]

theorem queuePurge_of_purging {lim : Limits} {b : Bool}
    (purging : (s.queue q).state = .purging lim b) : queuePurge s q = s.supResult .done := by
  simp only [queuePurge, purging]

theorem queuePurge_of_opened_empty {lim : Limits} (opened : (s.queue q).state = .opened lim)
    (empty : (s.queue q).messages = []) :
    queuePurge s q = (endWaiters s q .purging).supResult .done := by
  simp [queuePurge, opened, empty]

theorem queuePurge_of_opened_holding {lim : Limits} (opened : (s.queue q).state = .opened lim)
    (holds : (s.queue q).messages ≠ []) :
    queuePurge s q = (startPurge (endWaiters s q .purging) q lim false).supResult .done := by
  simp [queuePurge, opened, holds]

/-- The end of the waits and the start of a purge, as one change of the record (R41, R43). -/
theorem startPurge_endWaiters (wait : WaitLaw s) (c : ResCode) (lim : Limits) (b : Bool) :
    startPurge (endWaiters s q c) q lim b =
      ((s.waitersEnded q c).setQueue q
        { s.queue q with state := .purging lim b, receivers := [] }).addJob (.purge q) := by
  rw [startPurge, endWaiters_queue_self, endWaiters_eq_waitersEnded s q c wait]

/-- A queue that holds nothing closes at once, and the pass follows (R41, R42). -/
theorem closeOpened_endWaiters_empty (wait : WaitLaw s) (lim : Limits)
    (empty : (s.queue q).messages = []) :
    closeOpened (endWaiters s q .closed) q lim =
      admissionPass ((s.waitersEnded q .closed).setQueue q
        { s.queue q with state := .closed, bound := none, receivers := [] }) := by
  rw [closeOpened, closeRecord, endWaiters_queue_self, if_pos (by simp [empty]),
    endWaiters_eq_waitersEnded s q .closed wait]

/-- QUEUE_CLOSE of a queue that holds messages frees no slot, so it has nothing to reckon (R31). -/
theorem queueClose_of_opened_holding {lim : Limits} (wait : WaitLaw s)
    (opened : (s.queue q).state = .opened lim) (holds : (s.queue q).messages ≠ []) :
    queueClose s q =
      (((s.waitersEnded q .closed).setQueue q
        { s.queue q with state := .purging lim true, receivers := [] }).addJob
        (.purge q)).supResult .done := by
  have record := endWaiters_queue_self s q .closed
  have purge : closeOpened (endWaiters s q .closed) q lim =
      startPurge (endWaiters s q .closed) q lim true := by
    rw [closeOpened, record, if_neg (by simpa using holds)]
  have same : ((startPurge (endWaiters s q .closed) q lim true).supResult .done).unreserved =
      s.unreserved :=
    ((unreserved_congr rfl rfl).trans (startPurge_unreserved _ (by rw [record]; exact opened)
      true)).trans (endWaiters_unreserved s q .closed)
  rw [queueClose_of_opened opened, purge, reckonStoreEmpty_of_not_fallen (by omega),
    startPurge_endWaiters wait]

/-- Settles O36: the state of the queue decides, and whether an OPEN one holds messages. -/
theorem queueCloseAndPurgeByState : Obligations.QueueCloseAndPurgeByState := by
  refine ⟨fun s running wait => ?_, fun s running wait => ?_⟩
  · rw [exec_queueClose_running running]
    refine ⟨fun above => ?_, fun q named => ?_⟩
    · rw [withSupObject_out_of_range s _ above]
    · rw [withSupObject_named s _ named]
      refine ⟨fun closed => ?_, fun lim b purging => ?_, fun lim opened =>
        ⟨fun empty => ?_, fun holds => ?_⟩⟩
      · rw [queueClose_of_closed closed]
      · rw [queueClose_of_purging purging]
      · rw [queueClose_of_opened opened, closeOpened_endWaiters_empty wait lim empty]
      · rw [queueClose_of_opened_holding wait opened holds]
  · rw [exec_queuePurge_running running]
    refine ⟨fun above => ?_, fun q named => ?_⟩
    · rw [withSupObject_out_of_range s _ above]
    · rw [withSupObject_named s _ named]
      refine ⟨fun closed => ?_, fun lim b purging => ?_, fun lim opened =>
        ⟨fun empty => ?_, fun holds => ?_⟩⟩
      · rw [queuePurge_of_closed closed]
      · rw [queuePurge_of_purging purging]
      · rw [queuePurge_of_opened_empty opened empty, endWaiters_eq_waitersEnded s q .purging wait]
      · rw [queuePurge_of_opened_holding opened holds, startPurge_endWaiters wait]

/-! ### BIND and UNBIND -/

theorem bindQueue_outside_mask (outside : admits (s.queue q).recvMask t = false) :
    bindQueue s t q = s.deny t .bind q.val := by
  simp [bindQueue, outside]

section InsideMask

variable (inside : admits (s.queue q).recvMask t = true)
include inside

theorem bindQueue_of_closed (closed : (s.queue q).state = .closed) :
    bindQueue s t q = s.refuse t .closed := by
  simp [bindQueue, inside, closed]

theorem bindQueue_of_purging {lim : Limits} {b : Bool}
    (purging : (s.queue q).state = .purging lim b) : bindQueue s t q = s.refuse t .purging := by
  simp [bindQueue, inside, purging]

variable {lim : Limits} (opened : (s.queue q).state = .opened lim)
include opened

theorem bindQueue_of_bound_to_other {b : Agent} (bound : (s.queue q).bound = some b)
    (other : b ≠ t) : bindQueue s t q = s.refuse t .inUse := by
  simp [bindQueue, inside, opened, bound, other]

theorem bindQueue_of_bound_to_self (bound : (s.queue q).bound = some t) :
    bindQueue s t q = s.done t 0 := by
  simp [bindQueue, inside, opened, bound]

theorem bindQueue_of_unbound_awaited (unbound : (s.queue q).bound = none)
    (awaited : (s.queue q).receivers ≠ []) : bindQueue s t q = s.refuse t .inUse := by
  simp [bindQueue, inside, opened, unbound, awaited]

theorem bindQueue_of_unbound (unbound : (s.queue q).bound = none)
    (nobody : (s.queue q).receivers = []) :
    bindQueue s t q = (s.setQueue q { s.queue q with bound := some t }).done t 0 := by
  simp [bindQueue, inside, opened, unbound, nobody]

end InsideMask

theorem unbindQueue_by_binder (bound : (s.queue q).bound = some t) :
    unbindQueue s t q = (s.setQueue q { s.queue q with bound := none }).done t 0 :=
  if_pos bound

theorem unbindQueue_by_other (other : (s.queue q).bound ≠ some t) :
    unbindQueue s t q = s.deny t .unbind q.val :=
  if_neg other

/-- Settles O37: the mask, the state, the binding and the wait list are judged in this order. -/
theorem bindAndUnbind : Obligations.BindAndUnbind := by
  refine ⟨fun t q s ready named => ?_, fun t q s ready named => ?_⟩
  · rw [exec_bind_ready ready named]
    refine ⟨fun outside => ?_, fun inside => ⟨fun closed => ?_, fun lim b purging => ?_,
      fun lim opened => ⟨fun b bound other => ?_, fun bound => ?_, fun unbound awaited => ?_,
        fun unbound nobody => ?_⟩⟩⟩
    · rw [bindQueue_outside_mask outside]
      rfl
    · rw [bindQueue_of_closed inside closed]
    · rw [bindQueue_of_purging inside purging]
    · rw [bindQueue_of_bound_to_other inside opened bound other]
    · rw [bindQueue_of_bound_to_self inside opened bound]
      rfl
    · rw [bindQueue_of_unbound_awaited inside opened unbound awaited]
    · rw [bindQueue_of_unbound inside opened unbound nobody]
      rfl
  · rw [exec_unbind_ready ready named]
    refine ⟨fun bound => ?_, fun other => ?_⟩
    · rw [unbindQueue_by_binder bound]
      rfl
    · rw [unbindQueue_by_other other]
      rfl

/-! ### WATCH and UNWATCH -/

theorem watchPosition_eq_none_iff {c : AgentCtx} {x : Option QueueId} :
    c.watchPosition x = none ↔ ∀ k, c.watch.get k ≠ x := by
  simp [AgentCtx.watchPosition, List.find?_eq_none, mem_allFin]

/-- The position found is the lowest one. -/
theorem watchPosition_of_lowest {c : AgentCtx} {x : Option QueueId} {k : Fin 4}
    (holds : c.watch.get k = x) (lowest : ∀ j < k, c.watch.get j ≠ x) :
    c.watchPosition x = some k := by
  rw [AgentCtx.watchPosition, List.find?_eq_some_iff_getElem]
  refine ⟨by simpa using holds, k.val, by rw [length_allFin]; exact k.isLt,
    getElem_allFin k.val _, fun j below => ?_⟩
  rw [getElem_allFin]
  simpa using lowest ⟨j, below.trans k.isLt⟩ below

theorem setWatch_eq (k : Fin 4) (x : Option QueueId) :
    setWatch s t k x =
      s.setAgent t { s.agent t with
        watch := (s.agent t).watch.set k x, res := .doneWith (BitVec.ofNat 16 k.val) } := by
  rw [setWatch, done_eq, setAgent_agent_self, setAgent_setAgent]

theorem watchQueue_outside_mask (outside : admits (s.queue q).recvMask t = false) :
    watchQueue s t q = s.deny t .watch q.val := by
  simp [watchQueue, outside]

section InsideMask

variable (inside : admits (s.queue q).recvMask t = true)
include inside

theorem watchQueue_of_watched (watched : ∃ k, (s.agent t).watch.get k = some q) :
    watchQueue s t q = s.refuse t .duplicate := by
  have found : ((s.agent t).watchPosition (some q)).isSome = true := by
    rw [Option.isSome_iff_ne_none, ne_eq, watchPosition_eq_none_iff]
    exact not_forall_not.mpr watched
  simp [watchQueue, inside, found]

variable (unwatched : ∀ k, (s.agent t).watch.get k ≠ some q)
include unwatched

theorem watchQueue_of_full (full : ∀ k, (s.agent t).watch.get k ≠ none) :
    watchQueue s t q = s.refuse t .noRoom := by
  simp [watchQueue, inside, watchPosition_eq_none_iff.mpr unwatched,
    watchPosition_eq_none_iff.mpr full]

theorem watchQueue_of_room {k : Fin 4} (empty : (s.agent t).watch.get k = none)
    (lowest : ∀ j < k, (s.agent t).watch.get j ≠ none) :
    watchQueue s t q = setWatch s t k (some q) := by
  simp [watchQueue, inside, watchPosition_eq_none_iff.mpr unwatched,
    watchPosition_of_lowest empty lowest]

end InsideMask

theorem unwatchQueue_of_unwatched (unwatched : ∀ k, (s.agent t).watch.get k ≠ some q) :
    unwatchQueue s t q = s.refuse t .badOperand := by
  simp only [unwatchQueue, watchPosition_eq_none_iff.mpr unwatched]

theorem unwatchQueue_of_watched {k : Fin 4} (watched : (s.agent t).watch.get k = some q)
    (lowest : ∀ j < k, (s.agent t).watch.get j ≠ some q) :
    unwatchQueue s t q = setWatch s t k none := by
  simp only [unwatchQueue, watchPosition_of_lowest watched lowest]

/-- Settles O38: both commands act at the lowest position that the search of the watch list finds. -/
theorem watchAndUnwatch : Obligations.WatchAndUnwatch := by
  refine ⟨fun t q s ready named => ?_, fun t q s ready named => ?_⟩
  · rw [exec_watch_ready ready named]
    refine ⟨fun outside => ?_, fun inside => ⟨fun watched => ?_, fun unwatched =>
      ⟨fun full => ?_, fun k empty lowest => ?_⟩⟩⟩
    · rw [watchQueue_outside_mask outside]
      rfl
    · rw [watchQueue_of_watched inside watched]
    · rw [watchQueue_of_full inside unwatched full]
    · rw [watchQueue_of_room inside unwatched empty lowest, setWatch_eq]
  · rw [exec_unwatch_ready ready named]
    refine ⟨fun unwatched => ?_, fun k watched lowest => ?_⟩
    · rw [unwatchQueue_of_unwatched unwatched]
    · rw [unwatchQueue_of_watched watched lowest, setWatch_eq]

end Sys2Proof.Machine

/-! SEND and RECEIVE, case by case (chapters 3 and 4), one entry of the admission pass, and the statements about sending. -/

namespace Sys2Proof.Machine

variable {s : State} {t : Agent} {q : QueueId}

/-! ### The captured and the delivered message -/

theorem Staging.inRange_iff {g : Staging} : g.inRange = true ↔ StagingInRange g := by
  have length : decide (g.length.toNat ≤ Config.maxLength) = true ↔ g.length.toNat ≤ 8 :=
    decide_eq_true_iff
  have mark : (g.replyPresent = false ∨ g.replyQueue.toNat < 32) ↔
      (g.replyPresent = true → g.replyQueue.toNat ≤ 31) := by
    cases g.replyPresent <;> simp [Nat.lt_succ_iff]
  rw [Staging.inRange, Bool.and_eq_true, length, Bool.or_eq_true, Bool.not_eq_true',
    decide_eq_true_iff, mark]

/-- All payload words up to the length are captured, for the staging area has eight (R54). -/
theorem capture_payload_length {g : Staging} (room : g.length.toNat ≤ 8) :
    (g.capture t).payload.length = g.length.toNat := by
  simp [Staging.capture, g.payload.size_eq, room]

theorem capture_payload_word {g : Staging} {i : Fin 8} (below : i.val < g.length.toNat) :
    (g.capture t).payload[i.val]? = some (g.payload.get i) := by
  have size : i.val < g.payload.toList.length := by rw [g.payload.size_eq]; exact i.isLt
  simp only [Staging.capture, List.getElem?_take, if_pos below, List.getElem?_eq_getElem size,
    Table.get]

theorem capture_reply_of_unmarked {g : Staging} (unmarked : g.replyPresent = false) :
    (g.capture t).reply = none := by
  simp [Staging.capture, unmarked]

theorem capture_reply_of_marked {g : Staging} {x : QueueId} (marked : g.replyPresent = true)
    (named : g.replyQueue.toNat = x.val) : (g.capture t).reply = some x := by
  have word : (g.replyQueue.setWidth 16).toNat = x.val := by
    rw [BitVec.toNat_setWidth_of_le (by decide), named]
  simp [Staging.capture, marked, objectOf_of_eq word]

/-- Settles O40: the range checks make every word of the length, and the reply queue, one that there is. -/
theorem captureAndDeliveryAreFaithful : Obligations.CaptureAndDeliveryAreFaithful := by
  refine ⟨fun t g ⟨room, reply⟩ => ⟨rfl, rfl, rfl, capture_payload_length room,
    fun i below => capture_payload_word below, capture_reply_of_unmarked, fun marked => ?_⟩,
    fun d _ => ⟨rfl, rfl, rfl, rfl, rfl, rfl, fun i => ?_⟩⟩
  · exact ⟨⟨g.replyQueue.toNat, Nat.lt_succ_of_le (reply marked)⟩, rfl,
      capture_reply_of_marked marked rfl⟩
  · rw [Delivery.ofStored, Table.get_ofFn, payloadWord, List.getD_eq_getElem?_getD]

/-! ### A SEND or a RECEIVE that reaches the Queue Table -/

/-- An ATTACHED agent's SEND to a queue that there is goes to the Queue Table (R108). -/
theorem exec_send_ready (ready : Ready s t) (named : NamesQueue s t q) :
    exec (.send t) s = .next (send s t q).answerWrite := by
  obtain ⟨running, attached⟩ := ready
  rw [exec_send, writeCycle_running s _ running, sendCommand,
    acceptCommand_attached s _ _ attached, withQueue_named s _ named]

theorem exec_receive_ready (ready : Ready s t) (named : NamesQueue s t q) :
    exec (.receive t) s = .next (receive s t q).answerWrite := by
  obtain ⟨running, attached⟩ := ready
  rw [exec_receive, writeCycle_running s _ running, receiveCommand,
    acceptCommand_attached s _ _ attached, withQueue_named s _ named]

/-! ### The checks of SEND (R55) -/

theorem send_bad_operands
    (bad : ¬ (ModeInRange s t ∧ StagingInRange (s.agent t).staging)) :
    send s t q = s.refuse t .badOperand := by
  by_cases mode : ModeInRange s t
  · obtain ⟨m, known⟩ := exists_modeOf mode
    have outOfRange : (s.agent t).staging.inRange = false := by
      rw [Bool.eq_false_iff, ne_eq, Staging.inRange_iff]
      exact fun staged => bad ⟨mode, staged⟩
    simp [send, known, outOfRange]
  · simp only [send, modeOf_out_of_range mode]

section GoodOperands

variable {mode : Mode} (known : modeOf (s.operand t 1) = some mode)
  (staged : StagingInRange (s.agent t).staging)
include known staged

theorem send_outside_mask (outside : admits (s.queue q).sendMask t = false) :
    send s t q = s.deny t .send q.val := by
  simp [send, known, Staging.inRange_iff.mpr staged, outside]

variable (inside : admits (s.queue q).sendMask t = true)
include inside

theorem send_of_closed (closed : (s.queue q).state = .closed) :
    send s t q = s.refuse t .closed := by
  simp [send, known, Staging.inRange_iff.mpr staged, inside, closed]

theorem send_of_purging {lim : Limits} {b : Bool}
    (purging : (s.queue q).state = .purging lim b) : send s t q = s.refuse t .purging := by
  simp [send, known, Staging.inRange_iff.mpr staged, inside, purging]

theorem send_of_opened {lim : Limits} (opened : (s.queue q).state = .opened lim) :
    send s t q =
      reckonStoreEmpty s (sendOffer s t q mode ((s.agent t).staging.capture t)) := by
  simp [send, known, Staging.inRange_iff.mpr staged, inside, opened]

end GoodOperands

/-- A SEND that passes its checks comes to the offer of its captured message (R55, R56). -/
theorem exec_send_passes {lim : Limits} {mode : Mode} {m : Message}
    (passes : SendPasses s t q lim) (known : modeOf (s.operand t 1) = some mode)
    (captured : (s.agent t).staging.capture t = m) :
    exec (.send t) s =
      .next (reckonStoreEmpty s (sendOffer s t q mode m)).answerWrite := by
  obtain ⟨ready, named, -, staged, inside, opened⟩ := passes
  rw [exec_send_ready ready named, send_of_opened known staged inside opened, captured]

/-! ### The checks of RECEIVE (R73) -/

theorem receive_mode_out_of_range (out : ¬ ModeInRange s t) :
    receive s t q = s.refuse t .badOperand := by
  simp only [receive, modeOf_out_of_range out]

theorem boundToOther_iff {k : Queue} :
    k.boundToOther t = true ↔ ∃ b, k.bound = some b ∧ b ≠ t := by
  simp [Queue.boundToOther, Option.any_eq_true]

theorem boundToOther_eq_false {k : Queue} (own : ∀ b ∈ k.bound, b = t) :
    k.boundToOther t = false := by
  rw [Bool.eq_false_iff, ne_eq, boundToOther_iff]
  rintro ⟨b, bound, other⟩
  exact other (own b bound)

section GoodMode

variable {mode : Mode} (known : modeOf (s.operand t 1) = some mode)
include known

theorem receive_denied
    (other : admits (s.queue q).recvMask t = false ∨ ∃ b, (s.queue q).bound = some b ∧ b ≠ t) :
    receive s t q = s.deny t .receive q.val := by
  rcases other with outside | bound
  · simp [receive, known, outside]
  · cases inside : admits (s.queue q).recvMask t <;>
      simp [receive, known, inside, boundToOther_iff.mpr bound]

variable (inside : admits (s.queue q).recvMask t = true) (own : ∀ b ∈ (s.queue q).bound, b = t)
include inside own

theorem receive_of_closed (closed : (s.queue q).state = .closed) :
    receive s t q = s.refuse t .closed := by
  simp [receive, known, inside, boundToOther_eq_false own, closed]

theorem receive_of_purging {lim : Limits} {b : Bool}
    (purging : (s.queue q).state = .purging lim b) : receive s t q = s.refuse t .purging := by
  simp [receive, known, inside, boundToOther_eq_false own, purging]

end GoodMode

/-- Settles O41: each check is judged only when those before it are passed. -/
theorem sendAndReceiveChecksInOrder : Obligations.SendAndReceiveChecksInOrder := by
  refine ⟨fun t q s ready named => ?_, fun t q s ready named => ?_⟩
  · rw [exec_send_ready ready named]
    refine ⟨fun bad => ?_, fun mode staged => ?_⟩
    · rw [send_bad_operands bad]
    · obtain ⟨m, known⟩ := exists_modeOf mode
      refine ⟨fun outside => ?_, fun inside => ⟨fun closed => ?_, fun lim b purging => ?_⟩⟩
      · rw [send_outside_mask known staged outside]
        rfl
      · rw [send_of_closed known staged inside closed]
      · rw [send_of_purging known staged inside purging]
  · rw [exec_receive_ready ready named]
    refine ⟨fun out => ?_, fun mode => ?_⟩
    · rw [receive_mode_out_of_range out]
    · obtain ⟨m, known⟩ := exists_modeOf mode
      refine ⟨fun other => ?_, fun inside own => ⟨fun closed => ?_, fun lim b purging => ?_⟩⟩
      · rw [receive_denied known other]
        rfl
      · rw [receive_of_closed known inside own closed]
      · rw [receive_of_purging known inside own purging]

/-! ### The offer to the waiting receivers (R56, R57) -/

theorem firstReceiver_eq_none {k : Queue} {m : Message}
    (nobody : ∀ x ∈ k.receivers, labelMatches x.label x.mask m = false) :
    k.firstReceiver m = none := by
  simpa [Queue.firstReceiver, Receiver.accepts, List.find?_eq_none] using nobody

theorem firstReceiver_of_split {k : Queue} {m : Message} {pre post : List Receiver} {r : Receiver}
    (split : k.receivers = pre ++ r :: post)
    (before : ∀ x ∈ pre, labelMatches x.label x.mask m = false)
    (fits : labelMatches r.label r.mask m = true) : k.firstReceiver m = some r := by
  have nobody : pre.find? (·.accepts m) = none := by
    simpa [Receiver.accepts, List.find?_eq_none] using before
  have fits : r.accepts m = true := fits
  rw [Queue.firstReceiver, split, List.find?_append, nobody, Option.none_or]
  exact List.find?_cons_of_pos fits

/-- Each agent stands once in the list, so the entry that leaves is one entry (R36). -/
theorem filter_receiver_split {pre post : List Receiver} {r : Receiver}
    (once : ((pre ++ r :: post).map (·.agent)).Nodup) :
    (pre ++ r :: post).filter (·.agent != r.agent) = pre ++ post := by
  have others : ∀ x ∈ pre ++ post, x.agent ≠ r.agent := by
    have : r.agent ∉ (pre ++ post).map (·.agent) := by
      rw [List.map_append, List.map_cons, List.nodup_middle, ← List.map_append] at once
      exact (List.nodup_cons.mp once).1
    exact fun x mem same => this (List.mem_map.mpr ⟨x, mem, same⟩)
  have gone : (r :: post).filter (·.agent != r.agent) = post.filter (·.agent != r.agent) :=
    List.filter_cons_of_neg (by simp)
  rw [List.filter_append, gone, ← List.filter_append, filter_recv_self others]

/-- An agent that waits in a receiver wait list is not ATTACHED. -/
theorem port_ne_attached_of_awaitedReceive {a : Agent} {x : QueueId × Receiver}
    (waits : s.awaitedReceive a = some x) : (s.agent a).port ≠ .attached := by
  intro attached
  simp [State.awaitedReceive, attached] at waits

/-- A hand-off changes one queue record and, in one update, one context (R57). -/
theorem handOff_eq (m : Message) (r : Receiver) :
    s.handOff q m r =
      (s.setQueue q { s.queue q with
        nextSeq := (s.queue q).nextSeq + 1
        receivers := (s.queue q).receivers.filter (·.agent != r.agent) }).setAgent r.agent
        { s.agent r.agent with
          port := .attached, res := .delivered m
          delivery := .ofStored { msg := m, seq := (s.queue q).nextSeq }
          notices := (s.agent r.agent).notices ||| Notice.waitDone.bit } := by
  rw [State.handOff, endWait_eq, State.deliver, setAgent_agent_self, setAgent_setAgent]
  rfl

/-- A hand-off takes no slot (R57). -/
theorem handOff_unreserved (m : Message) (r : Receiver) :
    (s.handOff q m r).unreserved = s.unreserved :=
  (unreserved_congr rfl rfl).trans
    (unreserved_setQueue_of_same s (q := q) (k := { s.queue q with
      nextSeq := (s.queue q).nextSeq + 1
      receivers := (s.queue q).receivers.filter (·.agent != r.agent) })
      (Queue.unusedReserve_congr rfl rfl))

theorem sendOffer_to_receiver {mode : Mode} {m : Message} {r : Receiver}
    (first : (s.queue q).firstReceiver m = some r) :
    sendOffer s t q mode m = (s.handOff q m r).done t (s.queue q).nextSeq := by
  simp only [sendOffer, first]

/-- The offer to a receiver has nothing to reckon (R31, R57). -/
theorem reckonStoreEmpty_handOff_done (m : Message) (r : Receiver) (v : Word) :
    reckonStoreEmpty s ((s.handOff q m r).done t v) = (s.handOff q m r).done t v := by
  have same : ((s.handOff q m r).done t v).unreserved = s.unreserved :=
    (unreserved_congr (t := s.handOff q m r) rfl rfl).trans (handOff_unreserved m r)
  exact reckonStoreEmpty_of_not_fallen (by omega)

/-- Settles O42: the wait-list law makes the receiver another agent than the caller, and its entry one. -/
theorem sendHandsOffToWaitingReceiver : Obligations.SendHandsOffToWaitingReceiver := by
  intro t q lim m pre post r s passes wait captured split before fits
  have ⟨⟨_, attached⟩, _, mode, _⟩ := passes
  obtain ⟨-, -, -, entries, -, once, -⟩ := wait
  have other : t ≠ r.agent := by
    rintro rfl
    exact port_ne_attached_of_awaitedReceive (entries q r (by simp [split])) attached
  obtain ⟨mode, known⟩ := exists_modeOf mode
  have left := filter_receiver_split (split ▸ once q)
  rw [exec_send_passes passes known captured,
    sendOffer_to_receiver (firstReceiver_of_split split before fits),
    reckonStoreEmpty_handOff_done, done_eq, handOff_eq, setAgent_agent_ne _ _ _ other, split, left]
  rfl

/-! ### Admission (R58 to R60) -/

theorem sendOffer_with_room {mode : Mode} {m : Message}
    (nobody : (s.queue q).firstReceiver m = none) (room : s.canAdmit q = true) :
    sendOffer s t q mode m = (s.admitMessage q m).done t (s.queue q).nextSeq := by
  simp [sendOffer, nobody, room]

theorem admit_queue_ne (m : Message) {x : QueueId} (other : x ≠ q) :
    (s.admitMessage q m).queue x = s.queue x := by
  rw [State.queue, admit_queues, Table.get_set_ne _ _ other]
  rfl

/-- The message takes the queue's next number and its place by urgency (R59, R60). -/
theorem admit_queue_self (m : Message) {urgents normals : List Stored}
    (split : (s.queue q).messages = urgents ++ normals)
    (allUrgent : ∀ d ∈ urgents, d.msg.urgency = .urgent)
    (allNormal : ∀ d ∈ normals, d.msg.urgency = .normal) :
    (s.admitMessage q m).queue q =
      { s.queue q with
        nextSeq := (s.queue q).nextSeq + 1
        messages :=
          if m.urgency = .urgent then urgents ++ { msg := m, seq := (s.queue q).nextSeq } :: normals
          else urgents ++ normals ++ [{ msg := m, seq := (s.queue q).nextSeq }] } := by
  rw [State.queue, admit_queues, Table.get_set_self, split,
    placeMessage_split _ allUrgent allNormal]
  rfl

/-- An admission adds to a notice set the WATCHk of each position that holds the queue, and only at the rise from 0 to 1 (R46, R60). -/
theorem admit_notices_getLsbD (m : Message) (a : Agent) {i : Nat} (bit : i < 16) :
    ((s.admitMessage q m).agent a).notices.getLsbD i = true ↔
      (s.agent a).notices.getLsbD i = true ∨
        (s.queue q).messages = [] ∧
          ∃ k : Fin 4, i = k.val + 2 ∧ (s.agent a).watch.get k = some q := by
  rw [admit_agent]
  by_cases empty : (s.queue q).messages = []
  · simp [empty, watchKinds_getLsbD q _ bit]
  · simp [empty]

theorem Notice.position_lt (n : Notice) : n.position < 16 := by
  cases n with
  | watch k => simp only [Notice.position]; omega
  | waitDone | leaseLost | violation | jobDone | storeEmpty => decide

/-- The bits 2 to 5 of a notice set are the WATCH kinds (Table 10-7). -/
theorem Notice.position_eq_watch {n : Notice} {k : Fin 4} :
    n.position = k.val + 2 ↔ n = .watch k := by
  cases n with
  | watch j => simp [Notice.position, Fin.ext_iff]
  | waitDone | leaseLost | violation | jobDone | storeEmpty =>
    refine iff_of_false ?_ nofun
    dsimp only [Notice.position]
    omega

theorem admit_holdsNotice (m : Message) (a : Agent) (n : Notice) :
    holdsNotice ((s.admitMessage q m).agent a).notices n = true ↔
      holdsNotice (s.agent a).notices n = true ∨
        (s.queue q).messages = [] ∧ ∃ k, n = .watch k ∧ (s.agent a).watch.get k = some q := by
  simp only [holdsNotice, admit_notices_getLsbD m a n.position_lt, Notice.position_eq_watch]

/-- The caller's result is all that a SEND adds to the contexts of an admission (R59). -/
theorem admit_done_agent (m : Message) (v : Word) (a : Agent) :
    ((s.admitMessage q m).done t v).agent a =
      { s.agent a with
        res := if a = t then .doneWith v else (s.agent a).res
        notices := ((s.admitMessage q m).agent a).notices } := by
  rw [done_eq, setAgent_agent]
  split
  · next self => rw [self, admit_agent]
  · rw [admit_agent]

/-- An admission touches the queues, the contexts and the free count alone. -/
theorem admit_done_eq (m : Message) (v : Word) :
    (s.admitMessage q m).done t v =
      { s with
        queues := ((s.admitMessage q m).done t v).queues
        agents := ((s.admitMessage q m).done t v).agents
        freeCount := ((s.admitMessage q m).done t v).freeCount } := by
  obtain ⟨locks, -, senders, time, engine, sup, pins, bus, pending⟩ := admit_frame s q m
  exact State.ext_fields rfl locks rfl rfl senders time engine sup pins bus pending

/-- Settles O43: without a receiver and with room the offer is the admission, whose parts are read one by one. -/
theorem sendAdmitsToMessageList : Obligations.SendAdmitsToMessageList := by
  intro t q lim m urgents normals s passes captured nobody capacity slot split allUrgent allNormal
  have ⟨_, _, mode, _, _, opened⟩ := passes
  obtain ⟨mode, known⟩ := exists_modeOf mode
  have room : s.canAdmit q = true := (canAdmit_iff s q).mpr ⟨lim, opened, capacity, slot⟩
  have notices : ∀ a, (((s.admitMessage q m).done t (s.queue q).nextSeq).agent a).notices =
      ((s.admitMessage q m).agent a).notices := fun a => by rw [admit_done_agent]
  obtain ⟨-, free, -⟩ := admit_frame s q m
  refine ⟨(s.admitMessage q m).done t (s.queue q).nextSeq, ?_,
    admit_queue_self m split allUrgent allNormal, fun x other => admit_queue_ne m other, free,
    fun a => ?_, fun a n => ?_, admit_done_eq m _⟩
  · rw [exec_send_passes passes known captured,
      sendOffer_with_room (firstReceiver_eq_none nobody) room]
  · rw [notices]
    exact admit_done_agent m _ a
  · rw [notices]
    exact admit_holdsNotice m a n

/-! ### Neither a receiver nor room (R61, R62) -/

/-- A full queue, or one beyond its reserve with no unreserved slot left, has no room (R58). -/
theorem canAdmit_eq_false {lim : Limits} (opened : (s.queue q).state = .opened lim)
    (full : lim.capacity ≤ (s.queue q).messages.length ∨
      lim.reserve ≤ (s.queue q).messages.length ∧ s.unreserved = 0) : s.canAdmit q = false := by
  rw [Bool.eq_false_iff, ne_eq, canAdmit_iff]
  rintro ⟨lim', opened', capacity, slot⟩
  obtain rfl : lim = lim' := by simpa [opened] using opened'
  rw [Queue.held] at capacity slot
  omega

theorem sendOffer_without_room {mode : Mode} {m : Message}
    (nobody : (s.queue q).firstReceiver m = none) (full : s.canAdmit q = false) :
    sendOffer s t q mode m = sendBlocked s t q mode m := by
  simp [sendOffer, nobody, full]

/-- A SEND that ends blocked takes no slot, so it has nothing to reckon (R31). -/
theorem sendBlocked_unreserved (mode : Mode) (m : Message) :
    (sendBlocked s t q mode m).unreserved = s.unreserved := by
  unfold sendBlocked
  split
  · rfl
  · split <;> rfl

theorem sendBlocked_quiesced (m : Message) (quiesce : s.sup.quiesce = true) :
    sendBlocked s t q .wait m = s.refuse t .quiesced :=
  if_pos quiesce

theorem sendBlocked_pending (m : Message) (active : s.sup.quiesce = false) :
    sendBlocked s t q .wait m =
      State.startWait { s with senderWait := s.senderWait ++ [t] } t (.send q m)
        (s.operand t 2) := by
  simp [sendBlocked, active]

theorem exec_send_blocked {lim : Limits} {mode : Mode} {m : Message}
    (passes : SendPasses s t q lim) (known : modeOf (s.operand t 1) = some mode)
    (captured : (s.agent t).staging.capture t = m)
    (nobody : (s.queue q).firstReceiver m = none) (full : s.canAdmit q = false) :
    exec (.send t) s = .next (sendBlocked s t q mode m).answerWrite := by
  have same := sendBlocked_unreserved (s := s) (t := t) (q := q) mode m
  rw [exec_send_passes passes known captured, sendOffer_without_room nobody full,
    reckonStoreEmpty_of_not_fallen (by omega)]

/-- Settles O44: the mode decides, and in WAIT mode quiesce mode. -/
theorem sendWithoutRoom : Obligations.SendWithoutRoom := by
  intro t q lim m s passes captured nobody full
  have ⟨_, _, _, _, _, opened⟩ := passes
  have blocked : ∀ {mode : Mode}, modeOf (s.operand t 1) = some mode →
      exec (.send t) s = .next (sendBlocked s t q mode m).answerWrite := fun known =>
    exec_send_blocked passes known captured (firstReceiver_eq_none nobody)
      (canAdmit_eq_false opened full)
  refine ⟨fun nowait => ?_, fun wait quiesce => ?_, fun wait active => ?_⟩
  · rw [blocked (by rw [nowait, modeOf_nowait])]
    rfl
  · rw [blocked (by rw [wait, modeOf_wait]), sendBlocked_quiesced m quiesce]
  · rw [blocked (by rw [wait, modeOf_wait]), sendBlocked_pending m active]
    rfl

/-! ### One entry of the admission pass (R64 to R66) -/

theorem awaitedSend_eq_some {c : AgentCtx} {x : QueueId × Message}
    (waits : c.awaitedSend = some x) :
    ∃ deadline, c.port = .waiting { want := .send x.1 x.2, deadline := deadline } := by
  unfold AgentCtx.awaitedSend at waits
  split at waits
  · next w port =>
    split at waits
    · next q m want =>
      obtain rfl : (q, m) = x := Option.some.inj waits
      exact ⟨w.deadline, by rw [port, ← want]⟩
    · cases waits
  · cases waits

/-- A blocked sender whose message no receiver takes is served by admission alone (R65). -/
theorem serveSender_without_receiver {a : Agent} {m : Message}
    (waits : (s.agent a).awaitedSend = some (q, m))
    (nobody : (s.queue q).firstReceiver m = none) :
    serveSender s a =
      if s.canAdmit q then (s.admitMessage q m).completeSender a (s.queue q).nextSeq else s := by
  obtain ⟨deadline, port⟩ := awaitedSend_eq_some waits
  simp only [serveSender, port, nobody]

/-- The bit of WAIT_DONE is bit 0 (Table 10-7). -/
theorem waitDone_bit_getLsbD {i : Nat} (bit : i < 16) :
    Notice.waitDone.bit.getLsbD i = true ↔ i = 0 := by
  have bits : ∀ j : Fin 16, Notice.waitDone.bit.getLsbD j.val = true ↔ j.val = 0 := by decide
  exact bits ⟨i, bit⟩

/-- The completion of a blocked sender changes one context (R59, R115). -/
theorem completeSender_agent (a : Agent) (v : Word) (x : Agent) :
    (s.completeSender a v).agent x =
      { s.agent x with
        port := if x = a then .attached else (s.agent x).port
        res := if x = a then .doneWith v else (s.agent x).res
        notices :=
          if x = a then (s.agent x).notices ||| Notice.waitDone.bit else (s.agent x).notices } := by
  rw [State.completeSender, endWait_eq, setAgent_agent]
  by_cases self : x = a
  · subst self
    simp [State.dropSender, State.agent]
  · simp [self, State.dropSender, State.agent]

/-- The sender's WAIT_DONE joins the WATCH kinds of the admission (R46, R59, R60). -/
theorem admit_completeSender_notices_getLsbD (m : Message) (a : Agent) (v : Word) (x : Agent)
    {i : Nat} (bit : i < 16) :
    (((s.admitMessage q m).completeSender a v).agent x).notices.getLsbD i = true ↔
      (s.agent x).notices.getLsbD i = true ∨ x = a ∧ i = 0 ∨
        (s.queue q).messages = [] ∧
          ∃ k : Fin 4, i = k.val + 2 ∧ (s.agent x).watch.get k = some q := by
  rw [completeSender_agent]
  by_cases self : x = a
  · simp only [if_pos self, BitVec.getLsbD_or, Bool.or_eq_true, admit_notices_getLsbD m x bit,
      waitDone_bit_getLsbD bit, and_iff_right self]
    rw [or_assoc, or_comm (b := i = 0)]
  · simp only [self, if_false, admit_notices_getLsbD m x bit, false_and, false_or]

theorem admit_completeSender_agent (m : Message) (a : Agent) (v : Word) (x : Agent) :
    ((s.admitMessage q m).completeSender a v).agent x =
      { s.agent x with
        port := if x = a then .attached else (s.agent x).port
        res := if x = a then .doneWith v else (s.agent x).res
        notices := (((s.admitMessage q m).completeSender a v).agent x).notices } := by
  rw [completeSender_agent, admit_agent]

theorem admit_completeSender_senderWait (m : Message) (a : Agent) (v : Word) :
    ((s.admitMessage q m).completeSender a v).senderWait = s.senderWait.filter (· != a) := by
  obtain ⟨-, -, senders, -⟩ := admit_frame s q m
  exact congrArg (List.filter (· != a)) senders

theorem admit_completeSender_eq (m : Message) (a : Agent) (v : Word) :
    (s.admitMessage q m).completeSender a v =
      { s with
        queues := ((s.admitMessage q m).completeSender a v).queues
        agents := ((s.admitMessage q m).completeSender a v).agents
        freeCount := ((s.admitMessage q m).completeSender a v).freeCount
        senderWait := ((s.admitMessage q m).completeSender a v).senderWait } := by
  obtain ⟨locks, -, -, time, engine, sup, pins, bus, pending⟩ := admit_frame s q m
  exact State.ext_fields rfl locks rfl rfl rfl time engine sup pins bus pending

/-- Settles O48: the walk is a fold over the list, and an entry that no receiver serves is admitted or stays. -/
theorem admissionPassServesOldestFirst : Obligations.AdmissionPassServesOldestFirst := by
  refine ⟨fun s empty => ?_, fun s a rest entries => ?_, fun s a q m waits nobody => ?_⟩
  · rw [admissionPass, empty, List.foldl_nil]
  · rw [admissionPass, entries, List.foldl_cons]
  · rw [serveSender_without_receiver waits (firstReceiver_eq_none nobody)]
    obtain ⟨-, free, -⟩ := admit_frame s q m
    refine ⟨fun full => if_neg (by simp [full]), fun room urgents normals split allUrgent allNormal =>
      ⟨(s.admitMessage q m).completeSender a (s.queue q).nextSeq, if_pos room,
        admit_queue_self m split allUrgent allNormal, fun x other => admit_queue_ne m other, free,
        admit_completeSender_senderWait m a _, admit_completeSender_agent m a _,
        fun x i bit => admit_completeSender_notices_getLsbD m a _ x bit,
        admit_completeSender_eq m a _⟩⟩

end Sys2Proof.Machine

/-! RECEIVE, case by case: the filter, the search of the message list and of the blocked senders, and the statements about receiving (chapter 4). -/

namespace Sys2Proof.Machine

variable {s : State} {t : Agent} {q : QueueId}

/-! ### The filter (R72) -/

/-- A bit of the masked difference of two labels is clear exactly when the labels agree there or the mask has a zero. -/
theorem maskedDifference_getLsbD_eq_false {x y mask : Word} {i : Nat} :
    ((x ^^^ y) &&& mask).getLsbD i = false ↔ (mask.getLsbD i = true → x.getLsbD i = y.getLsbD i) := by
  rw [BitVec.getLsbD_and, BitVec.getLsbD_xor]
  cases mask.getLsbD i <;> simp

/-- Settles O39: the masked difference of the labels is 0 exactly when each of its bits is clear. -/
theorem filterMatchesLabelUnderMask : Obligations.FilterMatchesLabelUnderMask := by
  intro label mask m
  have bitwise : (m.label ^^^ label) &&& mask = 0 ↔
      ∀ i < 16, ((m.label ^^^ label) &&& mask).getLsbD i = false :=
    ⟨fun zero i _ => by simp [zero], fun clear => BitVec.eq_of_getLsbD_eq fun i bit =>
      (clear i bit).trans BitVec.getLsbD_zero.symm⟩
  rw [labelMatches, beq_iff_eq, bitwise]
  exact forall₂_congr fun i _ => maskedDifference_getLsbD_eq_false

/-! ### A RECEIVE that comes to its search (R73, R75) -/

theorem receive_of_opened {mode : Mode} {lim : Limits}
    (known : modeOf (s.operand t 1) = some mode) (inside : admits (s.queue q).recvMask t = true)
    (own : ∀ b ∈ (s.queue q).bound, b = t) (opened : (s.queue q).state = .opened lim) :
    receive s t q =
      reckonStoreEmpty s (receiveSearch s t q mode (s.operand t 3) (s.operand t 4)) := by
  simp [receive, known, inside, boundToOther_eq_false own, opened]

theorem exec_receive_passes {mode : Mode} {lim : Limits} (passes : ReceivePasses s t q lim)
    (known : modeOf (s.operand t 1) = some mode) :
    exec (.receive t) s =
      .next (reckonStoreEmpty s
        (receiveSearch s t q mode (s.operand t 3) (s.operand t 4))).answerWrite := by
  obtain ⟨ready, named, -, inside, own, opened⟩ := passes
  rw [exec_receive_ready ready named, receive_of_opened known inside own opened]

/-! ### The search of the message list (R75, R76) -/

section Search

variable {label mask : Word}

theorem find_message_of_split {pre post : List Stored} {d : Stored}
    (before : ∀ x ∈ pre, ¬ labelMatches label mask x.msg = true)
    (fits : labelMatches label mask d.msg = true) :
    (pre ++ d :: post).find? (fun x => labelMatches label mask x.msg) = some d :=
  List.find?_eq_some_iff_append.mpr
    ⟨fits, pre, post, rfl, fun x mem => by simpa using before x mem⟩

/-- The message that the search finds is the one that leaves the list (R75). -/
theorem erase_message_of_split {pre post : List Stored} {d : Stored}
    (before : ∀ x ∈ pre, ¬ labelMatches label mask x.msg = true)
    (fits : labelMatches label mask d.msg = true) :
    (pre ++ d :: post).eraseP (fun x => labelMatches label mask x.msg) = pre ++ post := by
  rw [List.eraseP_append_right _ before,
    List.eraseP_cons_of_pos (p := fun x : Stored => labelMatches label mask x.msg) fits]

/-- A taken message changes the free count, one queue record and, in one update, one context (R75). -/
theorem takeMessage_eq (p : Stored → Bool) (d : Stored) :
    takeMessage s t q p d =
      (State.setQueue { s with freeCount := s.freeCount + 1 } q
          { s.queue q with messages := (s.queue q).messages.eraseP p }).setAgent t
        { s.agent t with delivery := .ofStored d, res := .delivered d.msg } := by
  rw [takeMessage, State.deliver, setResult_eq, setAgent_agent_self, setAgent_setAgent]
  rfl

theorem receiveSearch_of_message {mode : Mode} {pre post : List Stored} {d : Stored}
    (split : (s.queue q).messages = pre ++ d :: post)
    (before : ∀ x ∈ pre, ¬ labelMatches label mask x.msg = true)
    (fits : labelMatches label mask d.msg = true) :
    receiveSearch s t q mode label mask =
      admissionPass (takeMessage s t q (fun x => labelMatches label mask x.msg) d) := by
  simp only [receiveSearch, split, find_message_of_split before fits]

/-! ### The search of the blocked senders (R77, R78) -/

/-- The message for queue `q` that `a` is blocked with is that of its pending SEND. -/
theorem blockedMessage_eq_some_iff {a : Agent} {m : Message} :
    s.blockedMessage q a = some m ↔ (s.agent a).awaitedSend = some (q, m) := by
  simp only [State.blockedMessage, AgentCtx.awaitedSend]
  cases (s.agent a).port with
  | waiting w =>
    rcases w with ⟨want, deadline⟩
    cases want with
    | send q' m' => by_cases same : q' = q <;> simp [same]
    | acquire _ | receive _ _ _ => simp
  | detached | attached | retiring => simp

/-- The search fails exactly when the filter takes no blocked sender's message for the queue (R77). -/
theorem firstSender_eq_none_iff :
    s.firstSender q label mask = none ↔
      ∀ a ∈ s.senderWait, ∀ m, (s.agent a).awaitedSend = some (q, m) →
        ¬ labelMatches label mask m = true := by
  simp only [State.firstSender, List.findSome?_eq_none_iff, ← blockedMessage_eq_some_iff]
  refine forall₂_congr fun a _ => ?_
  cases s.blockedMessage q a <;> simp

theorem firstSender_of_split {pre post : List Agent} {a : Agent} {m : Message}
    (split : s.senderWait = pre ++ a :: post)
    (waits : (s.agent a).awaitedSend = some (q, m))
    (fits : labelMatches label mask m = true)
    (before : ∀ x ∈ pre, ∀ m', (s.agent x).awaitedSend = some (q, m') →
      ¬ labelMatches label mask m' = true) :
    s.firstSender q label mask = some (a, m) := by
  rw [State.firstSender, List.findSome?_eq_some_iff]
  refine ⟨pre, a, post, split, by simp [blockedMessage_eq_some_iff.mpr waits, fits], ?_⟩
  exact List.findSome?_eq_none_iff.mp
    (firstSender_eq_none_iff (s := { s with senderWait := pre }).mpr before)

theorem receiveSearch_of_sender {mode : Mode} {a : Agent} {m : Message}
    (nothing : ∀ x ∈ (s.queue q).messages, ¬ labelMatches label mask x.msg = true)
    (first : s.firstSender q label mask = some (a, m)) :
    receiveSearch s t q mode label mask = takeFromSender s t q a m := by
  simp only [receiveSearch, List.find?_eq_none.mpr nothing, first]

theorem receiveSearch_of_nothing {mode : Mode}
    (nothing : ∀ x ∈ (s.queue q).messages, ¬ labelMatches label mask x.msg = true)
    (nobody : s.firstSender q label mask = none) :
    receiveSearch s t q mode label mask = receiveBlocked s t q mode label mask := by
  simp only [receiveSearch, List.find?_eq_none.mpr nothing, nobody]

end Search

/-- Settles O45: the search finds the message after which the list is split, and the removal takes the same one. -/
theorem receiveTakesFirstMatch : Obligations.ReceiveTakesFirstMatch := by
  intro t q lim pre post d s passes split before fits
  have ⟨_, _, mode, _⟩ := passes
  obtain ⟨mode, known⟩ := exists_modeOf mode
  rw [exec_receive_passes passes known, receiveSearch_of_message split before fits,
    takeMessage_eq, split, erase_message_of_split before fits]

/-- An agent with a pending SEND is WAITING, so it is not ATTACHED (R114). -/
theorem port_ne_attached_of_awaitedSend {a : Agent} {x : QueueId × Message}
    (waits : (s.agent a).awaitedSend = some x) : (s.agent a).port ≠ .attached := by
  obtain ⟨deadline, port⟩ := awaitedSend_eq_some waits
  simp [port]

/-- Each agent stands once in the list, so the entry that leaves is one entry (R37). -/
theorem filter_sender_split {pre post : List Agent} {a : Agent}
    (once : (pre ++ a :: post).Nodup) : (pre ++ a :: post).filter (· != a) = pre ++ post := by
  have others : a ∉ pre ++ post := (List.nodup_cons.mp (List.nodup_middle.mp once)).1
  have gone : (a :: post).filter (· != a) = post.filter (· != a) :=
    List.filter_cons_of_neg (by simp)
  rw [List.filter_append, gone, ← List.filter_append, filter_ne_self others]

/-- The hand-off from a blocked sender changes the Sender Wait List, one queue record and the two contexts (R78). -/
theorem takeFromSender_eq {a : Agent} (other : t ≠ a) (m : Message) :
    takeFromSender s t q a m =
      ((State.setQueue { s with senderWait := s.senderWait.filter (· != a) } q
            { s.queue q with nextSeq := (s.queue q).nextSeq + 1 }).setAgent a
          { s.agent a with
            port := .attached, res := .doneWith (s.queue q).nextSeq
            notices := (s.agent a).notices ||| Notice.waitDone.bit }).setAgent t
        { s.agent t with
          delivery := .ofStored { msg := m, seq := (s.queue q).nextSeq }
          res := .delivered m } := by
  rw [takeFromSender, State.completeSender, endWait_eq, State.deliver, setResult_eq,
    setAgent_agent_self, setAgent_setAgent, setAgent_agent_ne _ _ _ other]
  rfl

/-- A hand-off from a blocked sender takes no slot (R78). -/
theorem takeFromSender_unreserved (a : Agent) (m : Message) :
    (takeFromSender s t q a m).unreserved = s.unreserved :=
  (unreserved_congr rfl rfl).trans
    (unreserved_setQueue_of_same s (q := q)
      (k := { s.queue q with nextSeq := (s.queue q).nextSeq + 1 })
      (Queue.unusedReserve_congr rfl rfl))

/-- Settles O46: the list is passed over, the search of the senders stops at the entry that splits it, and the wait-list law makes that entry one and another agent's than the caller's. -/
theorem receiveTakesFromBlockedSender : Obligations.ReceiveTakesFromBlockedSender := by
  intro t a q lim m pre post s passes wait nothing split waits fits before
  have ⟨⟨_, attached⟩, _, mode, _⟩ := passes
  obtain ⟨-, -, -, -, -, -, -, once⟩ := wait
  have other : t ≠ a := by
    rintro rfl
    exact port_ne_attached_of_awaitedSend waits attached
  obtain ⟨mode, known⟩ := exists_modeOf mode
  have left : s.senderWait.filter (· != a) = pre ++ post := by
    rw [split, filter_sender_split (split ▸ once)]
  have same := takeFromSender_unreserved (s := s) (t := t) (q := q) a m
  rw [exec_receive_passes passes known,
    receiveSearch_of_sender nothing (firstSender_of_split split waits fits before),
    reckonStoreEmpty_of_not_fallen (by omega), takeFromSender_eq other, left]

/-! ### Both searches fail (R79, R80) -/

/-- A RECEIVE that finds nothing takes no message, so it has nothing to reckon (R31). -/
theorem receiveBlocked_unreserved (mode : Mode) (label mask : Word) :
    (receiveBlocked s t q mode label mask).unreserved = s.unreserved := by
  unfold receiveBlocked
  split
  · rfl
  · split
    · rfl
    · exact (unreserved_congr rfl rfl).trans
        (unreserved_setQueue_of_same s (q := q)
          (k := { s.queue q with
            receivers := (s.queue q).receivers ++ [{ agent := t, label := label, mask := mask }] })
          (Queue.unusedReserve_congr rfl rfl))

theorem receiveBlocked_quiesced (label mask : Word) (quiesce : s.sup.quiesce = true) :
    receiveBlocked s t q .wait label mask = s.refuse t .quiesced :=
  if_pos quiesce

theorem receiveBlocked_pending (label mask : Word) (active : s.sup.quiesce = false) :
    receiveBlocked s t q .wait label mask =
      (s.setQueue q { s.queue q with
        receivers := (s.queue q).receivers ++
          [{ agent := t, label := label, mask := mask }] }).startWait t
        (.receive q label mask) (s.operand t 2) := by
  simp [receiveBlocked, active]

theorem exec_receive_blocked {mode : Mode} {lim : Limits} (passes : ReceivePasses s t q lim)
    (known : modeOf (s.operand t 1) = some mode)
    (nothing : ∀ x ∈ (s.queue q).messages, ¬ FilterTakes s t x.msg)
    (nobody : s.firstSender q (s.operand t 3) (s.operand t 4) = none) :
    exec (.receive t) s =
      .next (receiveBlocked s t q mode (s.operand t 3) (s.operand t 4)).answerWrite := by
  have same := receiveBlocked_unreserved (s := s) (t := t) (q := q) mode (s.operand t 3)
    (s.operand t 4)
  rw [exec_receive_passes passes known, receiveSearch_of_nothing nothing nobody,
    reckonStoreEmpty_of_not_fallen (by omega)]

/-- Settles O47: the mode decides, and in WAIT mode quiesce mode. -/
theorem receiveFindsNothing : Obligations.ReceiveFindsNothing := by
  intro t q lim s passes nothing nobody
  have blocked : ∀ {mode : Mode}, modeOf (s.operand t 1) = some mode →
      exec (.receive t) s =
        .next (receiveBlocked s t q mode (s.operand t 3) (s.operand t 4)).answerWrite := fun known =>
    exec_receive_blocked passes known nothing (firstSender_eq_none_iff.mpr nobody)
  refine ⟨fun nowait => ?_, fun wait quiesce => ?_, fun wait active => ?_⟩
  · rw [blocked (by rw [nowait, modeOf_nowait])]
    rfl
  · rw [blocked (by rw [wait, modeOf_wait]), receiveBlocked_quiesced _ _ quiesce]
  · rw [blocked (by rw [wait, modeOf_wait]), receiveBlocked_pending _ _ active]
    rfl

end Sys2Proof.Machine

/-! The Time Base (chapter 5): a period, a tick and FREEZE, the tick latch of an agent, and the events that are not due. -/

namespace Sys2Proof.Machine

/-! ### Commands in sequence -/

/-- A run takes the front command, and goes on from the state that it leaves. -/
theorem run_succ_of_front {s s' : State} {c : Instr} {rest : List Instr} (n : Nat)
    (front : s.pending = c :: rest) (taken : exec c { s with pending := rest } = .next s') :
    Host.Core.run core (n + 1) s = Host.Core.run core n s' := by
  have step : core.step s = .next s' := (step_front s front).trans taken
  simp only [Host.Core.run, step]

theorem run_succ_of_exec {s s' : State} {c : Instr} {rest : List Instr} (n : Nat)
    (taken : exec c { s with pending := rest } = .next s') :
    Host.Core.run core (n + 1) { s with pending := c :: rest } = Host.Core.run core n s' :=
  run_succ_of_front n rfl taken

/-! ### Periods and ticks -/

theorem timeEvent_frozen {s : State} (f : TimeBase → TimeBase) (frozen : s.pins.frozen = true) :
    timeEvent s f = s := if_pos frozen

theorem timeEvent_counting {s : State} (f : TimeBase → TimeBase)
    (counting : s.pins.frozen = false) : timeEvent s f = { s with time := f s.time } :=
  if_neg (by simp [counting])

theorem TimeBase.period_of_lt {b : TimeBase} (more : b.counter + 1 < b.length) :
    b.period = { b with counter := b.counter + 1 } := if_pos more

theorem TimeBase.period_of_ge {b : TimeBase} (last : b.length ≤ b.counter + 1) :
    b.period = b.tick := if_neg (Nat.not_lt.mpr last)

/-- The periods that remain of an interval, counted one by one, end in its tick (log 7). -/
theorem TimeBase.period_iterate (n : Nat) :
    ∀ b : TimeBase, b.length = b.counter + (n + 1) → TimeBase.period^[n + 1] b = b.tick := by
  induction n with
  | zero => exact fun b length => TimeBase.period_of_ge (by omega)
  | succ n ih =>
    intro b length
    rw [Function.iterate_succ_apply, TimeBase.period_of_lt (by omega)]
    exact ih { b with counter := b.counter + 1 } (by dsimp only; omega)

theorem exec_refclkPeriodCounted_running {s : State} (running : Running s) :
    exec .refclkPeriodCounted s = .next (timeEvent s TimeBase.period) := by
  rw [exec_refclkPeriodCounted, blockEvent_running s _ running]

theorem exec_tick_running {s : State} (running : Running s) :
    exec .tick s = .next (timeEvent s TimeBase.tick) := by
  rw [exec_tick, blockEvent_running s _ running]

/-! ### The tick latch -/

section TickLatch

variable (s : State) (t : Agent)

theorem TimeBase.low_eq (b : TimeBase) : b.low = b.count.extractLsb' 0 16 := by
  rw [TimeBase.low, BitVec.setWidth_eq_extractLsb' (by decide)]

theorem tickHigh_of_valid {s : State} {t : Agent} (valid : (s.agent t).latch.valid = true) :
    tickHigh s t = (s.agent t).latch.high := if_pos valid

variable {s}

theorem exec_tickloRead_running (running : Running s) :
    exec (.tickloRead t) s =
      .next ((latchTick s t).answerRead (s.time.count.extractLsb' 0 16)) := by
  rw [exec_tickloRead, readCycle_running s _ _ running, TimeBase.low_eq]

theorem exec_tickhiRead_running (running : Running s) :
    exec (.tickhiRead t) s = .next ((unlatchTick s t).answerRead (tickHigh s t)) := by
  rw [exec_tickhiRead, readCycle_running s _ _ running]

/-- An answered cycle drives its value between the wait and the release (R158). -/
theorem answerRead_levels (v : Word) (waits : s.bus.abandoned = []) :
    (s.answerRead v).bus.levels = [.waiting, .answer (some v), .released] := by
  rw [State.answerRead, answerCycle_answered s (by simp [waits])]
  rfl

/-- What an event can leave of the latch of `t`, of the bus and of the queue of commands. -/
structure LatchKept (t : Agent) (s s' : State) : Prop where
  latch : (s'.agent t).latch = (s.agent t).latch
  bus : s'.bus = s.bus
  pins : s'.pins = s.pins
  pending : s'.pending = s.pending

theorem latchKept_tick : LatchKept t s (timeEvent s TimeBase.tick) := by
  unfold timeEvent
  split <;> exact ⟨rfl, rfl, rfl, rfl⟩

/-- The read of TICKHI behind any number of ticks drives the half that was latched before them. -/
theorem run_ticks_tickhi (n : Nat) : ∀ s : State, Running s → s.bus.abandoned = [] →
    s.pending = List.replicate n .tick ++ [.tickhiRead t] → (s.agent t).latch.valid = true →
    ∃ s', Host.Core.run core (n + 1) s = .next s' ∧
      s'.bus.levels = [.waiting, .answer (some (s.agent t).latch.high), .released] := by
  induction n with
  | zero =>
    intro s running waits queued valid
    refine ⟨_, run_succ_of_front 0 queued (exec_tickhiRead_running t running), ?_⟩
    rw [tickHigh_of_valid (by exact valid)]
    exact answerRead_levels _ waits
  | succ n ih =>
    intro s running waits queued valid
    have kept := latchKept_tick t
      (s := { s with pending := List.replicate n .tick ++ [.tickhiRead t] })
    rw [run_succ_of_front (n + 1) queued (exec_tick_running running)]
    obtain ⟨s', run, levels⟩ := ih _ (by rw [Running, kept.pins]; exact running)
      (by rw [kept.bus]; exact waits) kept.pending (by rw [kept.latch]; exact valid)
    exact ⟨s', run, by rw [levels, kept.latch]; rfl⟩

end TickLatch

/-- Settles O6: a tick leaves a valid latch, so the read of TICKHI returns the half that TICKLO latched. -/
theorem tickLatchReads : Obligations.TickLatchReads := by
  refine ⟨fun t s running => exec_tickloRead_running t running,
    fun t s running => exec_tickhiRead_running t running, fun t n s running waits => ?_⟩
  have latched := exec_tickloRead_running t
    (s := { s with pending := List.replicate n .tick ++ [.tickhiRead t] }) running
  obtain ⟨s', run, levels⟩ := run_ticks_tickhi t n
    ((latchTick { s with pending := List.replicate n .tick ++ [.tickhiRead t] } t).answerRead
      (s.time.count.extractLsb' 0 16))
    running (by simp [waits, latchTick]) rfl (by simp [latchTick])
  refine ⟨s', (run_succ_of_exec (n + 1) latched).trans run, levels.trans ?_⟩
  simp [latchTick, TimeBase.high, BusLevels.waiting, BusLevels.answer, BusLevels.released]

/-! ### Events that are not due -/

theorem lockTableTick_not_due {s : State} (idle : s.pins.frozen = true ∨ s.time.lockDue = 0) :
    lockTableTick s = s := if_pos idle.symm

theorem agentPortsTick_not_due {s : State} (idle : s.pins.frozen = true ∨ s.time.portDue = 0) :
    agentPortsTick s = s := if_pos idle.symm

theorem lockSweepStep_not_called {s : State} (other : ∀ r c, s.engine.state ≠ .retireLocks r c) :
    lockSweepStep s = s := by
  unfold lockSweepStep
  split
  · next r c called => exact absurd called (other r c)
  · rfl

theorem queueSweepStep_not_called {s : State}
    (other : ∀ r c, s.engine.state ≠ .retireQueues r c) : queueSweepStep s = s := by
  unfold queueSweepStep
  split
  · next r c called => exact absurd called (other r c)
  · rfl

theorem purgeStep_not_called {s : State} (other : ∀ q, s.engine.state ≠ .purge q) :
    purgeStep s = s := by
  unfold purgeStep
  split
  · next q called => exact absurd called (other q)
  · rfl

/-- Settles O8: each block finds no tick to take, and the engine no step of its state. -/
theorem eventsNotDueChangeNothing : Obligations.EventsNotDueChangeNothing := by
  refine ⟨fun l a s running => ⟨fun idle => ?_, fun idle => ?_⟩,
    fun s running => ⟨fun other => ?_, fun other => ?_, fun other => ?_⟩⟩
  · rw [exec_leaseCountdown, exec_leaseExpiry, blockEvent_running s _ running,
      blockEvent_running s _ running, lockTableTick_not_due idle, ite_self]
    exact ⟨rfl, rfl⟩
  · rw [exec_deadlineCountdown, exec_deadlineExpiry, blockEvent_running s _ running,
      blockEvent_running s _ running, agentPortsTick_not_due idle, ite_self]
    exact ⟨rfl, rfl⟩
  · rw [exec_lockSweepStep, blockEvent_running s _ running, lockSweepStep_not_called other]
  · rw [exec_queueSweepStep, blockEvent_running s _ running, queueSweepStep_not_called other]
  · rw [exec_purgeStep, blockEvent_running s _ running, purgeStep_not_called other]

end Sys2Proof.Machine

/-! The Lock Table's tick (R96 to R98): what it does at one lock, to one context, and at all 64 locks together. -/

namespace Sys2Proof.Machine

/-! ### One lock -/

theorem Lock.onLastTick_iff {k : Lock} :
    k.onLastTick = true ↔ ∃ h, k.hold = some h ∧ h.lease = some 1 := by
  cases held : k.hold <;> simp [Lock.onLastTick, held]

theorem Lock.afterTick_of_last {k : Lock} (last : k.onLastTick = true) : k.afterTick = k.lost :=
  if_pos last

theorem Lock.afterTick_of_not_last {k : Lock} (more : k.onLastTick = false) :
    k.afterTick = { k with hold := k.hold.map fun h => { h with lease := h.lease.map (· - 1) } } :=
  if_neg (by simp [more])

theorem Lock.lost_nobody {k : Lock} (nobody : k.waiters = []) :
    k.lost = { k with hold := none, broken := true } := by
  simp only [Lock.lost, nobody]

theorem Lock.lost_head {k : Lock} {w : Agent} {rest : List Agent} (queue : k.waiters = w :: rest) :
    k.lost = { k.grantTo w with waiters := rest } := by
  simp only [Lock.lost, queue]
  rfl

/-- A lease remaining of a lawful lock is at least 1 (R4). -/
theorem Lock.lease_pos {k : Lock} {h : Hold} {r : Nat} (lawful : k.lawful = true)
    (held : k.hold = some h) (lease : h.lease = some r) : 1 ≤ r := by
  obtain ⟨-, -, -, -, fits⟩ := (Lock.lawful_iff_of_held held).mp lawful
  obtain ⟨-, pos, -⟩ := fits r lease
  exact pos

/-- The next tick that is taken ends the lease of a lawful lock exactly when the lock is on its last tick. -/
theorem leaseEnding_eq_onLastTick {s : State} {l : LockId} (lawful : (s.lock l).lawful = true) :
    s.leaseEnding l = (s.lock l).onLastTick := by
  cases held : (s.lock l).hold with
  | none => simp [State.leaseEnding, Lock.onLastTick, held]
  | some h =>
    cases lease : h.lease with
    | none => simp [State.leaseEnding, Lock.onLastTick, held, lease]
    | some r =>
      have pos := Lock.lease_pos lawful held lease
      have one : r ≤ 1 ↔ r = 1 := by omega
      simp [State.leaseEnding, Lock.onLastTick, held, lease, one, beq_eq_decide]

/-! ### One context -/

/-- The context of an agent after a tick of the Lock Table that brought it a lost lock, where `granted` holds, and took one from it, where `deprived` holds (R15, R21). -/
def AgentCtx.afterLeases (c : AgentCtx) (granted deprived : Prop) [Decidable granted]
    [Decidable deprived] : AgentCtx :=
  { c with
    port := if granted then .attached else c.port
    res := if granted then .granted true else c.res
    notices := c.notices ||| (if granted then Notice.waitDone.bit else 0) |||
      (if deprived then Notice.leaseLost.bit else 0) }

section AfterLeases

variable {c : AgentCtx} {p q p' q' : Prop} [Decidable p] [Decidable q] [Decidable p'] [Decidable q']

theorem AgentCtx.afterLeases_congr (granted : p ↔ p') (deprived : q ↔ q') :
    c.afterLeases p q = c.afterLeases p' q' := by
  simp only [AgentCtx.afterLeases, granted, deprived]

theorem AgentCtx.afterLeases_of_not (granted : ¬ p) (deprived : ¬ q) : c.afterLeases p q = c := by
  simp [AgentCtx.afterLeases, granted, deprived]

theorem ite_or_bits (b : Word) :
    (if p ∨ p' then b else 0) = (if p then b else 0) ||| (if p' then b else 0) := by
  by_cases first : p <;> by_cases second : p' <;> simp [first, second]

/-- Two losses, one after the other. -/
theorem AgentCtx.afterLeases_afterLeases :
    (c.afterLeases p q).afterLeases p' q' = c.afterLeases (p ∨ p') (q ∨ q') := by
  simp only [AgentCtx.afterLeases, ite_or_bits, AgentCtx.mk.injEq, true_and, and_true]
  refine ⟨?_, ?_, ?_⟩
  · by_cases second : p' <;> simp [second]
  · by_cases second : p' <;> simp [second]
  · ac_rfl

end AfterLeases

/-- The lock is on its last tick, and the agent is the waiter to whom it will pass. -/
abbrev State.nextHolder (s : State) (l : LockId) (a : Agent) : Prop :=
  (s.lock l).onLastTick = true ∧ (s.lock l).waiters.head? = some a

/-- The lock is on its last tick, and the agent is the holder who will lose it. -/
abbrev State.lastHolder (s : State) (l : LockId) (a : Agent) : Prop :=
  (s.lock l).onLastTick = true ∧ ∃ h ∈ (s.lock l).hold, h.holder = a

/-! ### The tick at one lock -/

section OneLock

variable {s : State} {l : LockId}

theorem loseLock_lock_self : (loseLock s l).lock l = (s.lock l).lost := by
  unfold loseLock
  cases queue : (s.lock l).waiters with
  | nil => rw [passLock_nobody s l true queue, setLock_lock_self, Lock.lost_nobody queue]
  | cons w rest =>
    rw [passLock_head s l true queue, endWait_eq, setAgent_lock, setLock_lock_self,
      Lock.lost_head queue]

theorem loseLock_agent (a : Agent) :
    (loseLock s l).agent a =
      (s.agent a).afterLeases ((s.lock l).waiters.head? = some a) False := by
  unfold loseLock
  cases queue : (s.lock l).waiters with
  | nil =>
    rw [passLock_nobody s l true queue, AgentCtx.afterLeases_of_not (by simp) id]
    rfl
  | cons w rest =>
    rw [passLock_head s l true queue, endWait_eq, setAgent_agent]
    split
    · next self => subst self; simp [AgentCtx.afterLeases]
    · next other => rw [AgentCtx.afterLeases_of_not (by simpa using Ne.symm other) id]; rfl

theorem setNotice_leaseLost_agent (h : Agent) (a : Agent) :
    (s.setNotice h .leaseLost).agent a = (s.agent a).afterLeases False (h = a) := by
  rw [setNotice_eq, setAgent_agent]
  split
  · next self => subst self; simp [AgentCtx.afterLeases]
  · next other => rw [AgentCtx.afterLeases_of_not id (Ne.symm other)]

theorem tickLock_of_last {h : Hold} (held : (s.lock l).hold = some h) (last : h.lease = some 1) :
    tickLock s l = (loseLock s l).setNotice h.holder .leaseLost := by
  simp [tickLock, held, last, expireLease]

theorem tickLock_of_not_last (lawful : (s.lock l).lawful = true)
    (more : (s.lock l).onLastTick = false) : tickLock s l = s.setLock l (s.lock l).afterTick := by
  rw [Lock.afterTick_of_not_last more]
  unfold tickLock
  split
  · next free => rw [free, Option.map_none, ← free, setLock_get_self]
  · next h held =>
    split
    · next lease =>
      have same : { h with lease := h.lease.map (· - 1) } = h := by
        rw [lease, Option.map_none, ← lease]
      rw [held, Option.map_some, same, ← held, setLock_get_self]
    · next r lease =>
      have pos := Lock.lease_pos lawful held lease
      have ne : r ≠ 1 := fun one => by simp [Lock.onLastTick, held, lease, one] at more
      rw [if_pos (by omega), held, Option.map_some, lease, Option.map_some]

theorem tickLock_lock_self (lawful : (s.lock l).lawful = true) :
    (tickLock s l).lock l = (s.lock l).afterTick := by
  cases last : (s.lock l).onLastTick with
  | false => rw [tickLock_of_not_last lawful last, setLock_lock_self]
  | true =>
    obtain ⟨h, held, lease⟩ := Lock.onLastTick_iff.mp last
    rw [tickLock_of_last held lease, setNotice_eq, setAgent_lock, loseLock_lock_self,
      Lock.afterTick_of_last last]

theorem tickLock_agent (lawful : (s.lock l).lawful = true) (a : Agent) :
    (tickLock s l).agent a = (s.agent a).afterLeases (s.nextHolder l a) (s.lastHolder l a) := by
  rcases Bool.eq_false_or_eq_true (s.lock l).onLastTick with last | more
  · obtain ⟨h, held, lease⟩ := Lock.onLastTick_iff.mp last
    rw [tickLock_of_last held lease, setNotice_leaseLost_agent, loseLock_agent,
      AgentCtx.afterLeases_afterLeases]
    exact AgentCtx.afterLeases_congr (by simp [last]) (by simp [State.lastHolder, last, held])
  · rw [tickLock_of_not_last lawful more, setLock_agent,
      AgentCtx.afterLeases_of_not (by simp [more]) (by simp [more])]

end OneLock

/-! ### The tick at all locks -/

/-- `s'` is `s` after the tick at the locks of the list. -/
structure LeasesTicked (s : State) (ls : List LockId) (s' : State) : Prop where
  lock : ∀ l, s'.lock l = if l ∈ ls then (s.lock l).afterTick else s.lock l
  agent : ∀ a, s'.agent a =
    (s.agent a).afterLeases (∃ l ∈ ls, s.nextHolder l a) (∃ l ∈ ls, s.lastHolder l a)
  frame : s' = { s with locks := s'.locks, agents := s'.agents }

/-- No lock's tick reads what the tick at another lock has changed. -/
theorem foldl_tickLock (ls : List LockId) : ∀ s : State, ls.Nodup →
    (∀ l ∈ ls, (s.lock l).lawful = true) → LeasesTicked s ls (ls.foldl tickLock s) := by
  induction ls with
  | nil =>
    exact fun s _ _ =>
      ⟨fun l => by simp, fun a => (AgentCtx.afterLeases_of_not (by simp) (by simp)).symm, rfl⟩
  | cons x rest ih =>
    intro s distinct lawful
    obtain ⟨fresh, distinct⟩ := List.nodup_cons.mp distinct
    have other : ∀ l ∈ rest, (tickLock s x).lock l = s.lock l := fun l mem =>
      tickLock_lock_ne s x (ne_of_mem_of_not_mem mem fresh)
    have first := lawful x List.mem_cons_self
    obtain ⟨lock, agent, frame⟩ := ih (tickLock s x) distinct fun l mem =>
      other l mem ▸ lawful l (List.mem_cons_of_mem x mem)
    refine ⟨fun l => ?_, fun a => ?_, ?_⟩
    · rw [List.foldl_cons, lock]
      by_cases same : l = x
      · subst same
        rw [if_neg fresh, tickLock_lock_self first, if_pos List.mem_cons_self]
      · simp [tickLock_lock_ne s x same, same]
    · rw [List.foldl_cons, agent, tickLock_agent first, AgentCtx.afterLeases_afterLeases]
      have next : (∃ l ∈ rest, (tickLock s x).nextHolder l a) ↔ ∃ l ∈ rest, s.nextHolder l a :=
        exists_congr fun l => and_congr_right fun mem => by
          simp only [State.nextHolder, other l mem]
      have last : (∃ l ∈ rest, (tickLock s x).lastHolder l a) ↔ ∃ l ∈ rest, s.lastHolder l a :=
        exists_congr fun l => and_congr_right fun mem => by
          simp only [State.lastHolder, other l mem]
      exact AgentCtx.afterLeases_congr (by rw [next, List.exists_mem_cons_iff])
        (by rw [last, List.exists_mem_cons_iff])
    · obtain ⟨queues, free, senders, time, engine, sup, pins, bus, pending⟩ := tickLock_frame s x
      rw [List.foldl_cons, frame]
      exact State.ext_fields rfl rfl queues free senders time engine sup pins bus pending

/-- The state whose Lock Table has one tick less to take. -/
def State.takeLockTick (s : State) : State :=
  { s with time := { s.time with lockDue := s.time.lockDue - 1 } }

theorem lockTableTick_due {s : State} (moving : s.pins.frozen = false) (due : 0 < s.time.lockDue) :
    lockTableTick s = tickAllLocks s.takeLockTick :=
  if_neg (by simp [moving, Nat.pos_iff_ne_zero.mp due])

theorem tickAllLocks_ticked {s : State} (lawful : LocksLawful s) :
    LeasesTicked s (allFin 64) (tickAllLocks s) :=
  foldl_tickLock (allFin 64) s (nodup_allFin 64) fun l _ => lawful l

theorem exec_leaseCountdown_due {s : State} (running : Running s) (moving : s.pins.frozen = false)
    (due : 0 < s.time.lockDue) :
    exec .leaseCountdown s = .next (tickAllLocks s.takeLockTick) := by
  rw [exec_leaseCountdown, blockEvent_running s _ running, lockTableTick_due moving due]

theorem exec_leaseExpiry_running {s : State} {l : LockId} (running : Running s)
    (lawful : LocksLawful s) :
    exec (.leaseExpiry l) s =
      .next (if (s.lock l).onLastTick then lockTableTick s else s) := by
  rw [exec_leaseExpiry, blockEvent_running s _ running, leaseEnding_eq_onLastTick (lawful l)]

/-- The tick that ends the lease of lock `l`: the lock is lost, its holder gets LEASE_LOST, and its head waiter WAIT_DONE with the lock (R21). -/
theorem LeasesTicked.expired {s s' : State} {l : LockId} (ticked : LeasesTicked s (allFin 64) s')
    (last : (s.lock l).onLastTick = true) :
    s'.lock l = (s.lock l).lost ∧
    (∀ h ∈ (s.lock l).hold, holdsNotice (s'.agent h.holder).notices .leaseLost = true) ∧
    (∀ w ∈ (s.lock l).waiters.head?, (s'.agent w).port = .attached ∧
      (s'.agent w).res = .granted true ∧
      holdsNotice (s'.agent w).notices .waitDone = true) := by
  refine ⟨?_, fun h held => ?_, fun w head => ?_⟩
  · rw [ticked.lock, if_pos (mem_allFin l), Lock.afterTick_of_last last]
  · have loses : ∃ x ∈ allFin 64, s.lastHolder x h.holder := ⟨l, mem_allFin l, last, h, held, rfl⟩
    rw [ticked.agent]
    simp only [AgentCtx.afterLeases, if_pos loses, holdsNotice_or,
      show holdsNotice Notice.leaseLost.bit .leaseLost = true by decide, Bool.or_true]
  · have gains : ∃ x ∈ allFin 64, s.nextHolder x w := ⟨l, mem_allFin l, last, head⟩
    rw [ticked.agent]
    simp only [AgentCtx.afterLeases, if_pos gains, holdsNotice_or,
      show holdsNotice Notice.waitDone.bit .waitDone = true by decide, Bool.or_true,
      Bool.true_or, and_self]

/-- Settles O7: the ticks of the 64 locks, taken one by one, read one another's changes nowhere. -/
theorem leaseTickAtEveryLock : Obligations.LeaseTickAtEveryLock := by
  refine ⟨fun s running moving due lawful _ => ?_, fun l s running lawful _ =>
    ⟨fun more => ?_, fun last moving due => ?_⟩⟩
  · obtain ⟨lock, agent, frame⟩ := tickAllLocks_ticked (s := s.takeLockTick) lawful
    refine ⟨_, exec_leaseCountdown_due running moving due, fun l => ?_, fun a => ?_, frame⟩
    · rw [lock, if_pos (mem_allFin l)]
      rfl
    · rw [agent]
      have all : ∀ P : LockId → Prop, (∃ l ∈ allFin 64, P l) ↔ ∃ l, P l := by simp [mem_allFin]
      exact AgentCtx.afterLeases_congr (all _) (all _)
  · rw [exec_leaseExpiry_running running lawful, more]
    rfl
  · have ticked := tickAllLocks_ticked (s := s.takeLockTick) lawful
    refine ⟨_, ?_, exec_leaseCountdown_due running moving due, ticked.expired last⟩
    rw [exec_leaseExpiry_running running lawful, if_pos last, lockTableTick_due moving due]

end Sys2Proof.Machine

/-! The Agent Ports' tick (R96, R99): what it does to one context, and to all 16 with the wait lists that they stand in. -/

namespace Sys2Proof.Machine

/-! ### One context -/

/-- The context of an agent after a tick of the Agent Ports: on the last tick its command ends TIMEOUT with WAIT_DONE (R99). -/
def AgentCtx.afterDeadline (c : AgentCtx) : AgentCtx :=
  match c.port with
  | .waiting w =>
    if w.deadline = some 1 then
      { c with
        port := .attached, res := .plain .timeout
        notices := c.notices ||| Notice.waitDone.bit }
    else { c with port := .waiting { w with deadline := w.deadline.map (· - 1) } }
  | _ => c

section OneContext

variable {c : AgentCtx}

theorem AgentCtx.afterDeadline_of_last (last : c.deadline = some 1) :
    c.afterDeadline =
      { c with
        port := .attached, res := .plain .timeout
        notices := c.notices ||| Notice.waitDone.bit } := by
  cases port : c.port with
  | waiting w =>
    have last : w.deadline = some 1 := by simpa [AgentCtx.deadline, port] using last
    simp [AgentCtx.afterDeadline, port, last]
  | _ => simp [AgentCtx.deadline, port] at last

theorem AgentCtx.afterDeadline_of_waiting {w : Wait} (port : c.port = .waiting w)
    (more : c.deadline ≠ some 1) :
    c.afterDeadline =
      { c with port := .waiting { w with deadline := w.deadline.map (· - 1) } } := by
  have more : w.deadline ≠ some 1 := by simpa [AgentCtx.deadline, port] using more
  simp [AgentCtx.afterDeadline, port, more]

theorem AgentCtx.afterDeadline_of_absent (absent : c.deadline = none) : c.afterDeadline = c := by
  cases port : c.port with
  | waiting w =>
    have none : w.deadline = none := by simpa [AgentCtx.deadline, port] using absent
    have same : { w with deadline := w.deadline.map (· - 1) } = w := by
      rw [none, Option.map_none, ← none]
    rw [afterDeadline_of_waiting port (by simp [absent]), same, ← port]
  | _ => simp [AgentCtx.afterDeadline, port]

/-- A tick that does not end the wait leaves what is waited for. -/
theorem AgentCtx.afterDeadline_awaitedLock :
    c.afterDeadline.awaitedLock = if c.deadline = some 1 then none else c.awaitedLock := by
  split
  · next last => rw [afterDeadline_of_last last]; rfl
  · next more =>
    cases port : c.port with
    | waiting w => rw [afterDeadline_of_waiting port more]; simp [AgentCtx.awaitedLock, port]
    | _ => simp [AgentCtx.afterDeadline, port]

theorem AgentCtx.afterDeadline_awaitedSend :
    c.afterDeadline.awaitedSend = if c.deadline = some 1 then none else c.awaitedSend := by
  split
  · next last => rw [afterDeadline_of_last last]; rfl
  · next more =>
    cases port : c.port with
    | waiting w => rw [afterDeadline_of_waiting port more]; simp [AgentCtx.awaitedSend, port]
    | _ => simp [AgentCtx.afterDeadline, port]

end OneContext

/-- The pending RECEIVE reads the agent's own port alone. -/
theorem awaitedReceive_congr {s s' : State} {a : Agent}
    (port : (s'.agent a).port = (s.agent a).port) :
    s'.awaitedReceive a = s.awaitedReceive a := by
  simp only [State.awaitedReceive, port]

/-- The entry of a pending RECEIVE carries its agent's tag. -/
theorem agent_of_awaitedReceive {s : State} {a : Agent} {x : QueueId × Receiver}
    (awaits : s.awaitedReceive a = some x) : x.2.agent = a := by
  unfold State.awaitedReceive at awaits
  split at awaits
  · split at awaits
    · cases awaits
      rfl
    · cases awaits
  · cases awaits

theorem awaitedReceive_afterDeadline {s s' : State} {a : Agent}
    (agent : s'.agent a = (s.agent a).afterDeadline) :
    s'.awaitedReceive a = if (s.agent a).deadline = some 1 then none else s.awaitedReceive a := by
  split
  · next last =>
    rw [AgentCtx.afterDeadline_of_last last] at agent
    simp [State.awaitedReceive, agent]
  · next more =>
    cases port : (s.agent a).port with
    | waiting w =>
      rw [AgentCtx.afterDeadline_of_waiting port more] at agent
      simp [State.awaitedReceive, agent, port]
    | _ => simp [State.awaitedReceive, agent, AgentCtx.afterDeadline, port]

/-! ### The tick at the agents of a list -/

/-- Does the tick at the agents of the list end the wait of agent `x`? -/
def State.endsWait (s : State) (as : List Agent) (x : Agent) : Bool :=
  decide (x ∈ as) && (s.agent x).deadline == some 1

/-- `s'` is `s` after the tick at the agents of the list. -/
structure PortsTicked (s : State) (as : List Agent) (s' : State) : Prop where
  agent : ∀ x, s'.agent x = if x ∈ as then (s.agent x).afterDeadline else s.agent x
  lock : ∀ l, s'.lock l =
    { s.lock l with waiters := (s.lock l).waiters.filter fun x => !s.endsWait as x }
  queue : ∀ q, s'.queue q =
    { s.queue q with receivers := (s.queue q).receivers.filter fun r => !s.endsWait as r.agent }
  senderWait : s'.senderWait = s.senderWait.filter fun x => !s.endsWait as x
  frame : s' = { s with
    agents := s'.agents, locks := s'.locks, queues := s'.queues, senderWait := s'.senderWait }

namespace PortsTicked

variable {s u s' : State} {as : List Agent}

theorem awaitedLock (ticked : PortsTicked s as s') (x : Agent) :
    (s'.agent x).awaitedLock =
      if s.endsWait as x then none else (s.agent x).awaitedLock := by
  rw [ticked.agent]
  by_cases mem : x ∈ as <;> simp [mem, State.endsWait, AgentCtx.afterDeadline_awaitedLock]

theorem awaitedSend (ticked : PortsTicked s as s') (x : Agent) :
    (s'.agent x).awaitedSend =
      if s.endsWait as x then none else (s.agent x).awaitedSend := by
  rw [ticked.agent]
  by_cases mem : x ∈ as <;> simp [mem, State.endsWait, AgentCtx.afterDeadline_awaitedSend]

theorem awaitedReceive (ticked : PortsTicked s as s') (x : Agent) :
    s'.awaitedReceive x = if s.endsWait as x then none else s.awaitedReceive x := by
  have agent := ticked.agent x
  by_cases mem : x ∈ as
  · rw [if_pos mem] at agent
    simp [mem, State.endsWait, awaitedReceive_afterDeadline agent]
  · rw [if_neg mem] at agent
    simp [mem, State.endsWait, awaitedReceive_congr (congrArg AgentCtx.port agent)]

/-- The ended waits leave their lists and no other leaves one. -/
theorem waitLaw (ticked : PortsTicked s as s') (wait : WaitLaw s) : WaitLaw s' := by
  obtain ⟨waiters, waitersOnce, holder, receivers, received, receiversOnce, senders, sendersOnce⟩ :=
    wait
  refine ⟨fun x l => ?_, fun l => ?_, fun l h held => ?_, fun q r mem => ?_, fun x w awaits => ?_,
    fun q => ?_, fun x => ?_, ?_⟩
  · rw [ticked.lock, ticked.awaitedLock, List.mem_filter, waiters]
    cases s.endsWait as x <;> simp
  · rw [ticked.lock]
    exact (waitersOnce l).filter _
  · rw [ticked.lock] at held ⊢
    exact fun mem => holder l h held (List.mem_of_mem_filter mem)
  · rw [ticked.queue] at mem
    obtain ⟨mem, stays⟩ := List.mem_filter.mp mem
    rw [ticked.awaitedReceive, if_neg (by simpa using stays)]
    exact receivers q r mem
  · rw [ticked.awaitedReceive] at awaits
    split at awaits
    · simp at awaits
    · next stays =>
      rw [ticked.queue]
      exact List.mem_filter.mpr ⟨received x w awaits,
        by simpa [agent_of_awaitedReceive awaits] using stays⟩
  · rw [ticked.queue]
    exact (receiversOnce q).sublist (List.filter_sublist.map _)
  · rw [ticked.senderWait, ticked.awaitedSend, List.mem_filter, senders]
    cases s.endsWait as x <;> simp
  · rw [ticked.senderWait]
    exact sendersOnce.filter _

theorem endsWait_cons {a x : Agent} (ticked : PortsTicked s [a] u) (fresh : a ∉ as) :
    (!u.endsWait as x && !s.endsWait [a] x) = !s.endsWait (a :: as) x := by
  have agent := ticked.agent x
  by_cases self : x = a
  · subst self
    simp [State.endsWait, fresh]
  · rw [if_neg (by simpa using self)] at agent
    simp [State.endsWait, self, agent]

/-- The tick at one agent, and then at others. -/
theorem cons {a : Agent} (first : PortsTicked s [a] u) (fresh : a ∉ as)
    (rest : PortsTicked u as s') : PortsTicked s (a :: as) s' := by
  refine ⟨fun x => ?_, fun l => ?_, fun q => ?_, ?_, ?_⟩
  · rw [rest.agent, first.agent]
    by_cases self : x = a
    · subst self
      simp [fresh]
    · simp [self]
  · rw [rest.lock, first.lock, List.filter_filter]
    simp only [first.endsWait_cons fresh]
  · rw [rest.queue, first.queue, List.filter_filter]
    simp only [first.endsWait_cons fresh]
  · rw [rest.senderWait, first.senderWait, List.filter_filter]
    simp only [first.endsWait_cons fresh]
  · rw [rest.frame, first.frame]

end PortsTicked

section OneAgent

variable {s : State} {a : Agent}

theorem tickPort_of_last (wait : WaitLaw s) (last : (s.agent a).deadline = some 1) :
    tickPort s a = (s.withoutWaiter a).setAgent a (s.agent a).afterDeadline := by
  have expires : tickPort s a = expireDeadline s a := by
    cases port : (s.agent a).port with
    | waiting w =>
      have last : w.deadline = some 1 := by simpa [AgentCtx.deadline, port] using last
      simp [tickPort, port, last]
    | _ => simp [AgentCtx.deadline, port] at last
  rw [expires, expireDeadline, leaveWaitList_eq_withoutWaiter s a wait,
    AgentCtx.afterDeadline_of_last last]
  rfl

theorem tickPort_of_not_last (pos : ∀ d ∈ (s.agent a).deadline, 1 ≤ d)
    (more : (s.agent a).deadline ≠ some 1) :
    tickPort s a = s.setAgent a (s.agent a).afterDeadline := by
  unfold tickPort
  split
  · next w port =>
    have deadline : (s.agent a).deadline = w.deadline := by simp [AgentCtx.deadline, port]
    rw [deadline] at pos more
    split
    · next none =>
      rw [AgentCtx.afterDeadline_of_absent (deadline.trans none), setAgent_get_self]
    · next r some =>
      have low := pos r some
      have ne : r ≠ 1 := fun one => more (by rw [some, one])
      rw [if_pos (by omega), AgentCtx.afterDeadline_of_waiting port (deadline ▸ more), some,
        Option.map_some]
  · next idle =>
    have absent : (s.agent a).deadline = none := by
      unfold AgentCtx.deadline
      split
      · next w port => exact absurd port (idle w)
      · rfl
    rw [AgentCtx.afterDeadline_of_absent absent, setAgent_get_self]

theorem tickPort_ticked (wait : WaitLaw s) (pos : ∀ d ∈ (s.agent a).deadline, 1 ≤ d) :
    PortsTicked s [a] (tickPort s a) := by
  by_cases last : (s.agent a).deadline = some 1
  · have ends : ∀ x, (!s.endsWait [a] x) = (x != a) := fun x => by
      by_cases self : x = a
      · subst self; simp [State.endsWait, last]
      · simp [State.endsWait, self]
    rw [tickPort_of_last wait last]
    refine ⟨fun x => ?_, fun l => ?_, fun q => ?_, ?_, rfl⟩
    · simp only [setAgent_agent, List.mem_singleton]
      split
      · next self => rw [self]
      · rfl
    · simp only [ends]
      exact Table.get_map _ _ l
    · simp only [ends]
      exact Table.get_map _ _ q
    · simp only [ends]
      rfl
  · have stays : ∀ x, s.endsWait [a] x = false := fun x => by
      by_cases self : x = a
      · subst self; simp [State.endsWait, last]
      · simp [State.endsWait, self]
    rw [tickPort_of_not_last pos last]
    refine ⟨fun x => ?_, fun l => ?_, fun q => ?_, ?_, rfl⟩
    · simp only [setAgent_agent, List.mem_singleton]
      split
      · next self => rw [self]
      · rfl
    · simp [stays]
    · simp [stays]
    · simp [stays]

end OneAgent

/-! ### The tick at all agents -/

/-- No agent's tick reads what the tick at another agent has changed. -/
theorem foldl_tickPort (as : List Agent) : ∀ s : State, as.Nodup → WaitLaw s →
    (∀ a ∈ as, ∀ d ∈ (s.agent a).deadline, 1 ≤ d) → PortsTicked s as (as.foldl tickPort s) := by
  induction as with
  | nil =>
    exact fun s _ _ _ => ⟨fun x => by simp, fun l => by simp [State.endsWait],
      fun q => by simp [State.endsWait], by simp [State.endsWait], rfl⟩
  | cons a rest ih =>
    intro s distinct wait pos
    obtain ⟨fresh, distinct⟩ := List.nodup_cons.mp distinct
    have first := tickPort_ticked wait (pos a List.mem_cons_self)
    refine first.cons fresh (ih _ distinct (first.waitLaw wait) fun x mem => ?_)
    have other : x ∉ [a] := by simpa using ne_of_mem_of_not_mem mem fresh
    rw [first.agent, if_neg other]
    exact pos x (List.mem_cons_of_mem a mem)

/-- The state whose Agent Ports have one tick less to take. -/
def State.takePortTick (s : State) : State :=
  { s with time := { s.time with portDue := s.time.portDue - 1 } }

theorem agentPortsTick_due {s : State} (moving : s.pins.frozen = false) (due : 0 < s.time.portDue) :
    agentPortsTick s = tickAllPorts s.takePortTick :=
  if_neg (by simp [moving, Nat.pos_iff_ne_zero.mp due])

theorem tickAllPorts_ticked {s : State} (wait : WaitLaw s) (deadlines : DeadlineLaw s) :
    PortsTicked s (allFin 16) (tickAllPorts s) :=
  foldl_tickPort (allFin 16) s (nodup_allFin 16) wait fun a _ d waits =>
    (deadlines a d waits).1

theorem endsWait_allFin (s : State) (x : Agent) :
    (!s.endsWait (allFin 16) x) = ((s.agent x).deadline != some 1) := by
  simp [State.endsWait, mem_allFin, bne]

theorem exec_deadlineCountdown_due {s : State} (running : Running s)
    (moving : s.pins.frozen = false) (due : 0 < s.time.portDue) :
    exec .deadlineCountdown s = .next (tickAllPorts s.takePortTick) := by
  rw [exec_deadlineCountdown, blockEvent_running s _ running, agentPortsTick_due moving due]

/-- The next tick that is taken ends the wait of an agent exactly when its deadline is on the last tick. -/
theorem deadlineEnding_iff {s : State} (deadlines : DeadlineLaw s) (a : Agent) :
    s.deadlineEnding a = true ↔ (s.agent a).deadline = some 1 := by
  have pos := fun d waits => (deadlines a d waits).1
  cases port : (s.agent a).port with
  | waiting w =>
    cases deadline : w.deadline with
    | none => simp [State.deadlineEnding, AgentCtx.deadline, port, deadline]
    | some r =>
      have low : 1 ≤ r := pos r (by simp [AgentCtx.deadline, port, deadline])
      have one : r ≤ 1 ↔ r = 1 := by omega
      simp [State.deadlineEnding, AgentCtx.deadline, port, deadline, one]
  | _ => simp [State.deadlineEnding, AgentCtx.deadline, port]

theorem exec_deadlineExpiry_running {s : State} {a : Agent} (running : Running s) :
    exec (.deadlineExpiry a) s = .next (if s.deadlineEnding a then agentPortsTick s else s) := by
  rw [exec_deadlineExpiry, blockEvent_running s _ running]

/-- The tick that ends the wait of `a`: TIMEOUT with WAIT_DONE, and `a` stands in no wait list (R99). -/
theorem PortsTicked.expired {s s' : State} {a : Agent} (ticked : PortsTicked s (allFin 16) s')
    (last : (s.agent a).deadline = some 1) :
    s'.agent a =
      { s.agent a with
        port := .attached, res := .plain .timeout
        notices := (s.agent a).notices ||| Notice.waitDone.bit } ∧
    (∀ l, a ∉ (s'.lock l).waiters) ∧ (∀ q, ∀ r ∈ (s'.queue q).receivers, r.agent ≠ a) ∧
    a ∉ s'.senderWait := by
  have ends : s.endsWait (allFin 16) a = true := by simp [State.endsWait, mem_allFin, last]
  refine ⟨?_, fun l mem => ?_, fun q r mem self => ?_, fun mem => ?_⟩
  · rw [ticked.agent, if_pos (mem_allFin a), AgentCtx.afterDeadline_of_last last]
  · rw [ticked.lock] at mem
    simp [ends] at mem
  · rw [ticked.queue] at mem
    simp [self, ends] at mem
  · rw [ticked.senderWait] at mem
    simp [ends] at mem

/-- Settles O9: the ticks of the 16 agents, taken one by one, read one another's changes nowhere, and each keeps the wait-list law that the next one needs. -/
theorem deadlineTickAtEveryPort : Obligations.DeadlineTickAtEveryPort := by
  refine ⟨fun s running moving due wait deadlines => ?_, fun a s running wait deadlines =>
    ⟨fun more => ?_, fun last moving due => ?_⟩⟩
  · have ticked := tickAllPorts_ticked (s := s.takePortTick) wait deadlines
    refine ⟨_, exec_deadlineCountdown_due running moving due, fun a => ?_, fun l => ?_,
      fun q => ?_, ?_, ticked.frame⟩
    · rw [ticked.agent, if_pos (mem_allFin a)]
      rfl
    · rw [ticked.lock]
      simp only [endsWait_allFin]
      rfl
    · rw [ticked.queue]
      simp only [endsWait_allFin]
      rfl
    · rw [ticked.senderWait]
      simp only [endsWait_allFin]
      rfl
  · rw [exec_deadlineExpiry_running running, if_neg ((deadlineEnding_iff deadlines a).not.mpr more)]
  · have ticked := tickAllPorts_ticked (s := s.takePortTick) wait deadlines
    refine ⟨_, ?_, exec_deadlineCountdown_due running moving due, ticked.expired last⟩
    rw [exec_deadlineExpiry_running running, if_pos ((deadlineEnding_iff deadlines a).mpr last),
      agentPortsTick_due moving due]

end Sys2Proof.Machine

/-! What the events leave of the interval in progress, of the kinds in the notice sets, and of what CLEAR keeps (R89, R123, R155). -/

namespace Sys2Proof.Machine

/-! ### The notices of one context -/

/-- R123, R162 for one context: its notices and its enable are kinds, and none of its notices is the supervisor's in another context than the supervisor's. -/
def AgentCtx.NoticesLawful (c : AgentCtx) (supervisor : Prop) : Prop :=
  c.notices &&& noticeKinds = c.notices ∧ c.enable &&& noticeKinds = c.enable ∧
    (¬ supervisor → c.notices &&& supervisorKinds = 0)

theorem noticeLaw_iff {s : State} :
    NoticeLaw s ↔ ∀ a, (s.agent a).NoticesLawful (a = s.sup.tag) := by
  simp only [NoticeLaw, AgentCtx.NoticesLawful, forall_and, ne_eq]

section NoticesLawful

variable {c : AgentCtx} {supervisor : Prop}

theorem AgentCtx.NoticesLawful.congr {c' : AgentCtx} (lawful : c.NoticesLawful supervisor)
    (notices : c'.notices = c.notices) (enable : c'.enable = c.enable) :
    c'.NoticesLawful supervisor := by
  rwa [AgentCtx.NoticesLawful, notices, enable]

/-- Kinds are added, the supervisor's only in its own context. -/
theorem AgentCtx.NoticesLawful.add {c' : AgentCtx} {bits : Word}
    (lawful : c.NoticesLawful supervisor) (kinds : bits &&& noticeKinds = bits)
    (own : supervisor ∨ bits &&& supervisorKinds = 0) (notices : c'.notices = c.notices ||| bits)
    (enable : c'.enable = c.enable) : c'.NoticesLawful supervisor := by
  have distrib : ∀ mask : Word,
      (c.notices ||| bits) &&& mask = (c.notices &&& mask) ||| (bits &&& mask) := fun mask => by
    ext i
    simp [Bool.and_or_distrib_right]
  obtain ⟨present, enabled, others⟩ := lawful
  refine ⟨?_, enable ▸ enabled, fun other => ?_⟩
  · rw [notices, distrib, present, kinds]
  · rw [notices, distrib, others other, own.resolve_left other]
    rfl

/-- The notice set is emptied. -/
theorem AgentCtx.NoticesLawful.clear {c' : AgentCtx} (lawful : c.NoticesLawful supervisor)
    (notices : c'.notices = 0) (enable : c'.enable = c.enable) : c'.NoticesLawful supervisor := by
  obtain ⟨-, enabled, -⟩ := lawful
  exact ⟨by rw [notices]; rfl, enable ▸ enabled, fun _ => by rw [notices]; rfl⟩

theorem noticesLawful_initial : AgentCtx.initial.NoticesLawful supervisor :=
  ⟨rfl, rfl, fun _ => rfl⟩

end NoticesLawful

theorem Notice.bit_kinds (n : Notice) : n.bit &&& noticeKinds = n.bit := by
  cases n with
  | watch k => revert k; decide
  | _ => decide

/-- The WATCH kinds stand in bits 2 to 5. -/
theorem watchKinds_masked (c : AgentCtx) (q : QueueId) :
    c.watchKinds q &&& noticeKinds = c.watchKinds q ∧ c.watchKinds q &&& supervisorKinds = 0 := by
  have inside : ∀ k : Fin 4, noticeKinds.getLsbD (k.val + 2) = true ∧
      supervisorKinds.getLsbD (k.val + 2) = false := by decide
  have masked : ∀ i : Nat, i < 16 → (c.watchKinds q).getLsbD i = true →
      noticeKinds.getLsbD i = true ∧ supervisorKinds.getLsbD i = false := fun i low bit => by
    obtain ⟨k, rfl, -⟩ := (watchKinds_getLsbD q c low).mp bit
    exact inside k
  constructor
  · refine BitVec.eq_of_getLsbD_eq fun i low => ?_
    rw [BitVec.getLsbD_and, Bool.and_eq_left_iff_imp]
    exact fun bit => (masked i low bit).1
  · refine BitVec.eq_of_getLsbD_eq fun i low => ?_
    cases bit : (c.watchKinds q).getLsbD i with
    | false => simp [bit]
    | true => simp [(masked i low bit).2]

/-! ### Events within the part -/

/-- An event that leaves the time base, the Supervision Unit, the pins, the bus, the queue of commands and all that CLEAR keeps of the locks and the contexts, and keeps lawful notices lawful. -/
structure InnerEvent (s s' : State) : Prop where
  time : s'.time = s.time
  sup : s'.sup = s.sup
  pins : s'.pins = s.pins
  bus : s'.bus = s.bus
  pending : s'.pending = s.pending
  config : ∀ l, (s'.lock l).clear = (s.lock l).clear
  enable : ∀ a, (s'.agent a).enable = (s.agent a).enable
  notices : ∀ a, (s.agent a).NoticesLawful (a = s.sup.tag) →
    (s'.agent a).NoticesLawful (a = s.sup.tag)

theorem InnerEvent.refl (s : State) : InnerEvent s s :=
  ⟨rfl, rfl, rfl, rfl, rfl, fun _ => rfl, fun _ => rfl, fun _ => id⟩

/-- The later of two events is given first: it says what the earlier ends in. -/
theorem InnerEvent.after {s u s' : State} (later : InnerEvent u s') (earlier : InnerEvent s u) :
    InnerEvent s s' where
  time := later.time.trans earlier.time
  sup := later.sup.trans earlier.sup
  pins := later.pins.trans earlier.pins
  bus := later.bus.trans earlier.bus
  pending := later.pending.trans earlier.pending
  config l := (later.config l).trans (earlier.config l)
  enable a := (later.enable a).trans (earlier.enable a)
  notices a lawful := by
    have kept := later.notices a
    rw [earlier.sup] at kept
    exact kept (earlier.notices a lawful)

theorem InnerEvent.foldl {β : Type} {f : State → β → State} (each : ∀ s b, InnerEvent s (f s b))
    (entries : List β) (s : State) : InnerEvent s (entries.foldl f s) := by
  induction entries generalizing s with
  | nil => exact .refl s
  | cons b rest ih => exact (ih (f s b)).after (each s b)

/-- The queue records, the free count, the Sender Wait List and the engine may change in any way. -/
theorem InnerEvent.of_same {s s' : State} (agents : s'.agents = s.agents := by rfl)
    (locks : s'.locks = s.locks := by rfl) (time : s'.time = s.time := by rfl)
    (sup : s'.sup = s.sup := by rfl) (pins : s'.pins = s.pins := by rfl)
    (bus : s'.bus = s.bus := by rfl) (pending : s'.pending = s.pending := by rfl) :
    InnerEvent s s' := by
  have lock : ∀ l, s'.lock l = s.lock l := fun l => congrArg (·.get l) locks
  have agent : ∀ a, s'.agent a = s.agent a := fun a => congrArg (·.get a) agents
  exact ⟨time, sup, pins, bus, pending, fun l => by rw [lock], fun a => by rw [agent],
    fun a lawful => by rwa [agent]⟩

theorem InnerEvent.ite {s u v : State} {p : Prop} [Decidable p] (taken : p → InnerEvent s u)
    (skipped : ¬ p → InnerEvent s v) : InnerEvent s (if p then u else v) := by
  split
  · next holds => exact taken holds
  · next fails => exact skipped fails

variable (s : State)

/-! ### Updates of one context or lock -/

theorem inner_setAgent (a : Agent) (c : AgentCtx) (enable : c.enable = (s.agent a).enable)
    (notices : (s.agent a).NoticesLawful (a = s.sup.tag) → c.NoticesLawful (a = s.sup.tag)) :
    InnerEvent s (s.setAgent a c) := by
  refine ⟨rfl, rfl, rfl, rfl, rfl, fun l => rfl, fun x => ?_, fun x => ?_⟩
  · rw [setAgent_agent]
    split
    · next self => rw [enable, self]
    · rfl
  · rw [setAgent_agent]
    split
    · next self => exact self ▸ notices
    · exact id

/-- The notices and the enable stay as they are. -/
theorem inner_setContext (a : Agent) (c : AgentCtx)
    (notices : c.notices = (s.agent a).notices := by rfl)
    (enable : c.enable = (s.agent a).enable := by rfl) : InnerEvent s (s.setAgent a c) :=
  inner_setAgent s a c enable fun lawful => lawful.congr notices enable

theorem inner_setNotice (a : Agent) (n : Notice)
    (own : a = s.sup.tag ∨ n.bit &&& supervisorKinds = 0) : InnerEvent s (s.setNotice a n) :=
  inner_setAgent s a _ rfl fun lawful => lawful.add n.bit_kinds own rfl rfl

theorem inner_endWait (a : Agent) (r : Result) : InnerEvent s (s.endWait a r) :=
  inner_setAgent s a _ rfl fun lawful =>
    lawful.add (Notice.bit_kinds .waitDone) (.inr (by decide)) rfl rfl

theorem inner_clearNotices (t : Agent) : InnerEvent s (clearNotices s t) :=
  inner_setAgent s t _ rfl fun lawful => lawful.clear rfl rfl

theorem inner_refuse (t : Agent) (c : ResCode) : InnerEvent s (s.refuse t c) :=
  inner_setContext s t _

theorem inner_done (t : Agent) (v : Word) : InnerEvent s (s.done t v) :=
  inner_setContext s t _

theorem inner_setResult (t : Agent) (r : Result) : InnerEvent s (s.setResult t r) :=
  inner_setContext s t _

theorem inner_deliver (a : Agent) (d : Stored) : InnerEvent s (s.deliver a d) :=
  inner_setContext s a _

theorem inner_startWait (t : Agent) (w : Want) (timeout : Word) :
    InnerEvent s (s.startWait t w timeout) :=
  inner_setContext s t _

theorem inner_setLock (l : LockId) (k : Lock) (config : k.clear = (s.lock l).clear := by rfl) :
    InnerEvent s (s.setLock l k) := by
  refine ⟨rfl, rfl, rfl, rfl, rfl, fun x => ?_, fun x => rfl, fun x => id⟩
  rw [setLock_lock]
  split
  · next self => rw [config, self]
  · rfl

/-! ### Shared operations -/

theorem inner_leaveWaitList (a : Agent) : InnerEvent s (s.leaveWaitList a) := by
  unfold State.leaveWaitList
  split
  · split
    · exact inner_setLock s _ _
    · exact .of_same
    · exact .of_same
  · exact .refl s

theorem inner_reckonStoreEmpty (before : State) : InnerEvent s (reckonStoreEmpty before s) :=
  .ite (fun _ => inner_setNotice s _ _ (.inl rfl)) fun _ => .refl s

theorem inner_endJob : InnerEvent s s.endJob :=
  .after (inner_setNotice _ _ _ (.inl rfl)) .of_same

theorem inner_passLock (l : LockId) (lost : Bool) : InnerEvent s (passLock s l lost) := by
  unfold passLock
  split
  · exact inner_setLock s l _
  · exact .after (inner_endWait _ _ _) (inner_setLock s l _)

/-! ### The Lock Table -/

theorem inner_acquireNested (t : Agent) (l : LockId) (h : Hold) :
    InnerEvent s (acquireNested s t l h) :=
  .ite (fun _ => inner_refuse s t _) fun _ => .after (inner_done _ t _) (inner_setLock s l _)

theorem inner_acquireWait (t : Agent) (l : LockId) (h : Hold) :
    InnerEvent s (acquireWait s t l h) :=
  .ite (fun _ => inner_refuse s t _) fun _ => .ite (fun _ => inner_refuse s t _) fun _ =>
    .after (inner_startWait _ t _ _) (inner_setLock s l _)

theorem inner_release (t : Agent) (l : LockId) : InnerEvent s (release s t l) := by
  unfold release
  split
  · exact inner_refuse s t _
  · exact .ite (fun _ => inner_refuse s t _) fun _ =>
      .ite (fun _ => .after (inner_done _ t _) (inner_setLock s l _)) fun _ =>
        .after (inner_done _ t _) (inner_passLock s l false)

theorem inner_renew (t : Agent) (l : LockId) : InnerEvent s (renew s t l) := by
  unfold renew
  split
  · exact inner_refuse s t _
  · exact .ite (fun _ => inner_refuse s t _) fun _ =>
      .after (inner_done _ t _) (inner_setLock s l _)

theorem inner_tickLock (l : LockId) : InnerEvent s (tickLock s l) := by
  unfold tickLock
  split
  · exact .refl s
  · split
    · exact .refl s
    · exact .ite (fun _ => inner_setLock s l _) fun _ =>
        .after (inner_setNotice _ _ _ (.inr (by decide))) (inner_passLock s l true)

/-! ### The Agent Ports -/

theorem inner_detach (t : Agent) : InnerEvent s (detach s t) :=
  .ite (fun _ => inner_refuse s t _) fun _ =>
    .after (inner_done _ t _) (.after (inner_setContext (s.dropBindings t) t _) .of_same)

/-- The context as it was, but out of its wait and its wait list. -/
theorem inner_leave_setContext (a : Agent) (c : AgentCtx)
    (notices : c.notices = (s.agent a).notices := by rfl)
    (enable : c.enable = (s.agent a).enable := by rfl) :
    InnerEvent s ((s.leaveWaitList a).setAgent a c) := by
  have same : (s.leaveWaitList a).agent a = s.agent a :=
    congrArg (·.get a) (leaveWaitList_frame s a).1
  exact .after (inner_setContext _ a c (by rw [same, notices]) (by rw [same, enable]))
    (inner_leaveWaitList s a)

theorem inner_cancel (t : Agent) : InnerEvent s (cancel s t) := by
  unfold cancel
  split
  · exact inner_leave_setContext s t _
  · exact inner_refuse s t _

theorem inner_tickPort (a : Agent) : InnerEvent s (tickPort s a) := by
  unfold tickPort
  split
  · split
    · exact .refl s
    · exact .ite (fun _ => inner_setContext s a _) fun _ =>
        .after (inner_endWait _ a _) (inner_leaveWaitList s a)
  · exact .refl s

/-! ### Messages -/

theorem inner_handOff (q : QueueId) (m : Message) (r : Receiver) :
    InnerEvent s (s.handOff q m r) :=
  .after (inner_endWait _ r.agent _) (.after (inner_deliver _ r.agent _) .of_same)

/-- An admission adds WATCH kinds, which are no kinds of the supervisor. -/
theorem inner_admitMessage (q : QueueId) (m : Message) : InnerEvent s (s.admitMessage q m) := by
  obtain ⟨locks, -, -, time, -, sup, pins, bus, pending⟩ := admit_frame s q m
  refine ⟨time, sup, pins, bus, pending, fun l => congrArg (fun t => (t.get l).clear) locks,
    fun a => by rw [admit_agent], fun a lawful => ?_⟩
  obtain ⟨kinds, others⟩ := watchKinds_masked (s.agent a) q
  rw [admit_agent]
  split
  · exact lawful.add kinds (.inr others) rfl rfl
  · exact lawful

theorem inner_completeSender (a : Agent) (seq : Word) : InnerEvent s (s.completeSender a seq) :=
  .after (inner_endWait _ a _) .of_same

theorem inner_serveSender (a : Agent) : InnerEvent s (serveSender s a) := by
  unfold serveSender
  split
  · split
    · split
      · exact .after (inner_completeSender _ a _) (inner_handOff s _ _ _)
      · exact .ite (fun _ => .after (inner_completeSender _ a _) (inner_admitMessage s _ _))
          fun _ => .refl s
    · exact .refl s
  · exact .refl s

theorem inner_admissionPass : InnerEvent s (admissionPass s) :=
  .foldl inner_serveSender _ s

theorem inner_sendBlocked (t : Agent) (q : QueueId) (mode : Mode) (m : Message) :
    InnerEvent s (sendBlocked s t q mode m) := by
  unfold sendBlocked
  split
  · exact inner_refuse s t _
  · exact .ite (fun _ => inner_refuse s t _) fun _ => .after (inner_startWait _ t _ _) .of_same

theorem inner_sendOffer (t : Agent) (q : QueueId) (mode : Mode) (m : Message) :
    InnerEvent s (sendOffer s t q mode m) := by
  unfold sendOffer
  split
  · exact .after (inner_done _ t _) (inner_handOff s q m _)
  · exact .ite (fun _ => .after (inner_done _ t _) (inner_admitMessage s q m)) fun _ =>
      inner_sendBlocked s t q mode m

theorem inner_takeMessage (t : Agent) (q : QueueId) (p : Stored → Bool) (d : Stored) :
    InnerEvent s (takeMessage s t q p d) :=
  .after (inner_setResult _ t _) (.after (inner_deliver _ t d) .of_same)

theorem inner_takeFromSender (t : Agent) (q : QueueId) (a : Agent) (m : Message) :
    InnerEvent s (takeFromSender s t q a m) :=
  .after (inner_setResult _ t _)
    (.after (inner_deliver _ t _) (.after (inner_completeSender _ a _) .of_same))

theorem inner_receiveBlocked (t : Agent) (q : QueueId) (mode : Mode) (label mask : Word) :
    InnerEvent s (receiveBlocked s t q mode label mask) := by
  unfold receiveBlocked
  split
  · exact inner_refuse s t _
  · exact .ite (fun _ => inner_refuse s t _) fun _ => .after (inner_startWait _ t _ _) .of_same

theorem inner_receiveSearch (t : Agent) (q : QueueId) (mode : Mode) (label mask : Word) :
    InnerEvent s (receiveSearch s t q mode label mask) := by
  unfold receiveSearch
  split
  · exact .after (inner_admissionPass _) (inner_takeMessage s t q _ _)
  · split
    · exact inner_takeFromSender s t q _ _
    · exact inner_receiveBlocked s t q mode label mask

/-! ### The Queue Table -/

theorem inner_endWaiters (q : QueueId) (c : ResCode) : InnerEvent s (endWaiters s q c) :=
  .after (.foldl (fun s a => inner_endWait s a _) _ _) .of_same

theorem inner_closeOpened (q : QueueId) (lim : Limits) : InnerEvent s (closeOpened s q lim) :=
  .ite (fun _ => .after (inner_admissionPass _) .of_same) fun _ => .of_same

theorem inner_setWatch (t : Agent) (k : Fin 4) (x : Option QueueId) :
    InnerEvent s (setWatch s t k x) :=
  .after (inner_done _ t _) (inner_setContext s t _)

theorem inner_unwatchQueue (t : Agent) (q : QueueId) : InnerEvent s (unwatchQueue s t q) := by
  unfold unwatchQueue
  split
  · exact inner_refuse s t _
  · exact inner_setWatch s t _ _

/-! ### The Maintenance Engine -/

theorem inner_acceptRetire (a : Agent) : InnerEvent s (acceptRetire s a) :=
  .after (u := (s.leaveWaitList a).setAgent a (s.agent a).retire) .of_same
    (inner_leave_setContext s a _)

theorem inner_lockSweepStep : InnerEvent s (lockSweepStep s) := by
  unfold lockSweepStep
  split
  · next r c _ =>
    have sweep : InnerEvent s
        (if (s.lock c).hold.any (fun h => h.holder == r) then loseLock s c else s) :=
      .ite (fun _ => inner_passLock s c true) fun _ => .refl s
    dsimp only
    split <;> exact .after .of_same sweep
  · exact .refl s

theorem inner_queueSweepStep : InnerEvent s (queueSweepStep s) := by
  unfold queueSweepStep
  split
  · next r c _ =>
    have sweep : InnerEvent s
        (if (s.queue c).bound = some r then s.setQueue c { s.queue c with bound := none } else s) :=
      .ite (fun _ => .of_same) fun _ => .refl s
    dsimp only
    split
    · exact .after .of_same sweep
    · exact .after (inner_endJob _) (.after (inner_setContext _ r _) sweep)
  · exact .refl s

theorem inner_discardHead (q : QueueId) : InnerEvent s (discardHead s q) := by
  unfold discardHead
  split
  · exact .refl s
  · exact .of_same

theorem inner_endPurge (q : QueueId) (lim : Limits) (closeAfter : Bool) :
    InnerEvent s (endPurge s q lim closeAfter) :=
  .ite (fun _ => .of_same) fun _ => .of_same

theorem inner_purgeQueue (q : QueueId) (lim : Limits) (closeAfter : Bool) :
    InnerEvent s (purgeQueue s q lim closeAfter) :=
  .ite
    (fun _ => .after (inner_endJob _) (.after (inner_admissionPass _)
      (.after (inner_endPurge _ q lim closeAfter) (inner_discardHead s q))))
    fun _ => .after (inner_admissionPass _) (inner_discardHead s q)

theorem inner_purgeStep : InnerEvent s (purgeStep s) := by
  unfold purgeStep
  split
  · split
    · exact .after (inner_reckonStoreEmpty _ s) (inner_purgeQueue s _ _ _)
    · exact .refl s
  · exact .refl s

theorem inner_tickAllLocks : InnerEvent s (tickAllLocks s) :=
  .foldl inner_tickLock _ s

theorem inner_tickAllPorts : InnerEvent s (tickAllPorts s) :=
  .foldl inner_tickPort _ s

end Sys2Proof.Machine

/-! CLEAR and the events of the blocks (R103, R145): in either order they leave the same state. -/

namespace Sys2Proof.Machine

/-! ### CLEAR -/

/-- CLEAR reads nothing that an inner event changes. -/
theorem InnerEvent.clearPart_eq {s s' : State} (event : InnerEvent s s') :
    clearPart s' = clearPart s := by
  refine State.ext_fields (Table.ext_get fun a => ?_) (Table.ext_get fun l => ?_) rfl rfl rfl
    event.time rfl ?_ event.pins event.bus event.pending
  · change (clearPart s').agent a = (clearPart s).agent a
    rw [clearPart_agent, clearPart_agent, AgentCtx.clear, AgentCtx.clear, event.enable]
  · change (clearPart s').lock l = (clearPart s).lock l
    rw [clearPart_lock, clearPart_lock, event.config]
  · change ({ s'.sup with quiesce := _, capture := _, sres := _, sresv := _ } : Supervision) = _
    rw [event.sup]
    rfl

/-- The state that a taken CLEAR leaves when no other command waits. -/
def State.cleared (s : State) : State :=
  State.answerWrite (clearPart { s with pending := [] })

/-- No lock is HELD, every agent is DETACHED and the engine is IDLE, as CLEAR leaves the part. -/
structure AllIdle (s : State) : Prop where
  lock : ∀ l, (s.lock l).hold = none
  agent : ∀ a, (s.agent a).port = .detached
  engine : s.engine.state = .idle

theorem cleared_allIdle (s : State) : AllIdle s.cleared where
  lock l := congrArg Lock.hold (clearPart_lock { s with pending := [] } l)
  agent a := congrArg AgentCtx.port (clearPart_agent { s with pending := [] } a)
  engine := rfl

theorem exec_clear_running {s : State} (running : Running s) :
    exec .clear s = .next (clearPart s).answerWrite := by
  rw [exec_clear, writeCycle_running s _ running]

/-! ### An event before or behind CLEAR -/

section Orders

variable {s : State} {c : Instr} {f : State → State} (running : Running s)
  (block : ∀ s, exec c s = blockEvent s f)
include running block

theorem run_clear_event :
    Host.Core.run core 2 { s with pending := [.clear, c] } = .next (f s.cleared) := by
  have clear := exec_clear_running (s := { s with pending := [c] }) running
  have taken : exec c s.cleared = .next (f s.cleared) :=
    (block _).trans (blockEvent_running _ _ running)
  exact (run_succ_of_exec 1 clear).trans (run_succ_of_front 0 rfl taken)

/-- An event that is inner but for the time base `b` that it leaves. -/
theorem run_event_clear {b : TimeBase}
    (event : InnerEvent { s with pending := [.clear], time := b }
      (f { s with pending := [.clear] })) :
    Host.Core.run core 2 { s with pending := [c, .clear] } =
      .next { s.cleared with time := b } := by
  have taken := (block { s with pending := [.clear] }).trans (blockEvent_running _ _ running)
  have running' : Running (f { s with pending := [.clear] }) := by
    rw [Running, event.pins]
    exact running
  have clear := exec_clear_running (s := { f { s with pending := [.clear] } with pending := [] })
    running'
  have same : clearPart { f { s with pending := [.clear] } with pending := [] } =
      { clearPart (f { s with pending := [.clear] }) with pending := [] } := rfl
  rw [same, event.clearPart_eq] at clear
  exact (run_succ_of_exec 1 taken).trans (run_succ_of_front 0 event.pending clear)

end Orders

/-- An event that does to the time base what `b` says, and is inner otherwise; where all is idle it does nothing else. -/
structure TimedEvent (f : State → State) (b : Bool → TimeBase → TimeBase) : Prop where
  inner : ∀ s, InnerEvent { s with time := b s.pins.frozen s.time } (f s)
  idle : ∀ s, AllIdle s → f s = { s with time := b s.pins.frozen s.time }

theorem TimedEvent.meets_clear {c : Instr} {f : State → State} {b : Bool → TimeBase → TimeBase}
    (timed : TimedEvent f b) (block : ∀ s, exec c s = blockEvent s f) {s : State}
    (running : Running s) :
    ∃ s', Host.Core.run core 2 { s with pending := [.clear, c] } = .next s' ∧
      Host.Core.run core 2 { s with pending := [c, .clear] } = .next s' := by
  have cleared : f s.cleared = { s.cleared with time := b s.pins.frozen s.time } :=
    timed.idle s.cleared (cleared_allIdle s)
  exact ⟨{ s.cleared with time := b s.pins.frozen s.time },
    (run_clear_event running block).trans (congrArg Host.Outcome.next cleared),
    run_event_clear running block (timed.inner { s with pending := [.clear] })⟩

/-! ### The events of the blocks -/

theorem timed_timeEvent (f : TimeBase → TimeBase) :
    TimedEvent (fun s => timeEvent s f) fun frozen b => if frozen then b else f b := by
  have eq : ∀ s : State, timeEvent s f =
      { s with time := if s.pins.frozen then s.time else f s.time } := fun s => by
    unfold timeEvent
    split <;> rfl
  exact ⟨fun s => eq s ▸ .refl _, fun s _ => eq s⟩

theorem foldl_of_fixed {β : Type} {f : State → β → State} {s : State} (fixed : ∀ b, f s b = s)
    (entries : List β) : entries.foldl f s = s := by
  induction entries with
  | nil => rfl
  | cons b rest ih => rw [List.foldl_cons, fixed, ih]

theorem tickAllLocks_of_idle {s : State} (idle : AllIdle s) : tickAllLocks s = s :=
  foldl_of_fixed (fun l => by simp [tickLock, idle.lock l]) _

theorem tickAllPorts_of_idle {s : State} (idle : AllIdle s) : tickAllPorts s = s :=
  foldl_of_fixed (fun a => by simp [tickPort, idle.agent a]) _

/-- The tick that the Lock Table takes, or not, as the time base counts it. -/
def TimeBase.lockTaken (frozen : Bool) (b : TimeBase) : TimeBase :=
  if b.lockDue = 0 ∨ frozen then b else { b with lockDue := b.lockDue - 1 }

/-- The tick that the Agent Ports take, or not, as the time base counts it. -/
def TimeBase.portTaken (frozen : Bool) (b : TimeBase) : TimeBase :=
  if b.portDue = 0 ∨ frozen then b else { b with portDue := b.portDue - 1 }

theorem timed_lockTableTick : TimedEvent lockTableTick TimeBase.lockTaken := by
  refine ⟨fun s => ?_, fun s idle => ?_⟩
  · unfold lockTableTick TimeBase.lockTaken
    split
    · exact .refl s
    · exact inner_tickAllLocks _
  · unfold lockTableTick TimeBase.lockTaken
    split
    · rfl
    · exact tickAllLocks_of_idle ⟨idle.lock, idle.agent, idle.engine⟩

theorem timed_agentPortsTick : TimedEvent agentPortsTick TimeBase.portTaken := by
  refine ⟨fun s => ?_, fun s idle => ?_⟩
  · unfold agentPortsTick TimeBase.portTaken
    split
    · exact .refl s
    · exact inner_tickAllPorts _
  · unfold agentPortsTick TimeBase.portTaken
    split
    · rfl
    · exact tickAllPorts_of_idle ⟨idle.lock, idle.agent, idle.engine⟩

theorem timed_lockSweepStep : TimedEvent lockSweepStep fun _ b => b :=
  ⟨inner_lockSweepStep, fun s idle => lockSweepStep_not_called (by simp [idle.engine])⟩

theorem timed_queueSweepStep : TimedEvent queueSweepStep fun _ b => b :=
  ⟨inner_queueSweepStep, fun s idle => queueSweepStep_not_called (by simp [idle.engine])⟩

theorem timed_purgeStep : TimedEvent purgeStep fun _ b => b :=
  ⟨inner_purgeStep, fun s idle => purgeStep_not_called (by simp [idle.engine])⟩

/-! ### The two expiry rows -/

/-- An event that is not due after CLEAR, and before it takes at most a tick: the orders differ in the ticks due alone. -/
theorem expiry_meets_clear {c : Instr} {due : State → Bool} {f : State → State}
    {b : Bool → TimeBase → TimeBase} (timed : TimedEvent f b)
    (block : ∀ s, exec c s = blockEvent s fun x => if due x then f x else x)
    (idle : ∀ s, AllIdle s → due s = false)
    (dueOnly : ∀ frozen t, b frozen t =
      { t with lockDue := (b frozen t).lockDue, portDue := (b frozen t).portDue })
    {s : State} (running : Running s) :
    ∃ s1 s2, Host.Core.run core 2 { s with pending := [.clear, c] } = .next s1 ∧
      Host.Core.run core 2 { s with pending := [c, .clear] } = .next s2 ∧
      s1.time = s.time ∧ s2 = { s1 with time := s2.time } ∧
      s2.time = { s.time with lockDue := s2.time.lockDue, portDue := s2.time.portDue } := by
  have first := run_clear_event running block
  rw [idle _ (cleared_allIdle s)] at first
  cases taken : due { s with pending := [.clear] } with
  | true =>
    have event := timed.inner { s with pending := [.clear] }
    refine ⟨_, _, first, run_event_clear (b := b s.pins.frozen s.time) running block ?_, rfl, rfl,
      dueOnly _ _⟩
    rw [taken]
    exact event
  | false =>
    refine ⟨_, _, first, run_event_clear (b := s.time) running block ?_, rfl, rfl, rfl⟩
    rw [taken]
    exact .refl _

/-- Settles O33: the events change what CLEAR clears, and the time base, which CLEAR keeps. -/
theorem clearMeetsBlockEvents : Obligations.ClearMeetsBlockEvents := by
  refine ⟨fun c s running listed => ?_, fun l a c s running listed => ?_⟩
  · simp only [List.mem_cons, List.not_mem_nil, or_false] at listed
    rcases listed with rfl | rfl | rfl | rfl | rfl | rfl | rfl
    · exact (timed_timeEvent _).meets_clear exec_refclkPeriodCounted running
    · exact (timed_timeEvent _).meets_clear exec_tick running
    · exact timed_lockTableTick.meets_clear exec_leaseCountdown running
    · exact timed_agentPortsTick.meets_clear exec_deadlineCountdown running
    · exact timed_lockSweepStep.meets_clear exec_lockSweepStep running
    · exact timed_queueSweepStep.meets_clear exec_queueSweepStep running
    · exact timed_purgeStep.meets_clear exec_purgeStep running
  · simp only [List.mem_cons, List.not_mem_nil, or_false] at listed
    rcases listed with rfl | rfl
    · refine expiry_meets_clear timed_lockTableTick (exec_leaseExpiry · l)
        (fun s idle => by simp [State.leaseEnding, idle.lock l]) (fun frozen t => ?_) running
      unfold TimeBase.lockTaken
      split <;> rfl
    · refine expiry_meets_clear timed_agentPortsTick (exec_deadlineExpiry · a)
        (fun s idle => by simp [State.deadlineEnding, idle.agent a]) (fun frozen t => ?_) running
      unfold TimeBase.portTaken
      split <;> rfl

end Sys2Proof.Machine

/-! Every command but the tick and the two edges of RESET# leaves the interval in progress, the tick count and the supervisor tag, and keeps the notices lawful: the laws of time and of the notices follow (R89, R123, R163). -/

namespace Sys2Proof.Machine

/-! ### Steady events -/

/-- The interval in progress and the tick count are the same; TICKDIV and the ticks due may differ. -/
structure TimeBase.SameInterval (b b' : TimeBase) : Prop where
  counter : b'.counter = b.counter
  length : b'.length = b.length
  count : b'.count = b.count

/-- An event that leaves the interval in progress, the tick count, the level of RESET# and the supervisor tag, and keeps lawful notices lawful. -/
structure SteadyEvent (s s' : State) : Prop where
  interval : s.time.SameInterval s'.time
  held : s'.pins.resetHeld = s.pins.resetHeld
  tag : s'.sup.tag = s.sup.tag
  notices : ∀ a, (s.agent a).NoticesLawful (a = s.sup.tag) →
    (s'.agent a).NoticesLawful (a = s.sup.tag)

theorem InnerEvent.steady {s s' : State} (event : InnerEvent s s') : SteadyEvent s s' where
  interval := by rw [event.time]; exact ⟨rfl, rfl, rfl⟩
  held := by rw [event.pins]
  tag := by rw [event.sup]
  notices := event.notices

/-- The later of two events is given first: it says what the earlier ends in. -/
theorem SteadyEvent.after {s u s' : State} (later : SteadyEvent u s') (earlier : SteadyEvent s u) :
    SteadyEvent s s' where
  interval :=
    ⟨later.interval.counter.trans earlier.interval.counter,
      later.interval.length.trans earlier.interval.length,
      later.interval.count.trans earlier.interval.count⟩
  held := later.held.trans earlier.held
  tag := later.tag.trans earlier.tag
  notices a lawful := by
    have kept := later.notices a
    rw [earlier.tag] at kept
    exact kept (earlier.notices a lawful)

/-- The contexts stay as they are. -/
theorem SteadyEvent.of_same {s s' : State} (agents : s'.agents = s.agents := by rfl)
    (interval : s.time.SameInterval s'.time := by exact ⟨rfl, rfl, rfl⟩)
    (held : s'.pins.resetHeld = s.pins.resetHeld := by rfl)
    (tag : s'.sup.tag = s.sup.tag := by rfl) : SteadyEvent s s' := by
  have agent : ∀ a, s'.agent a = s.agent a := fun a => congrArg (·.get a) agents
  exact ⟨interval, held, tag, fun a lawful => by rwa [agent]⟩

theorem SteadyEvent.ite {s u v : State} {p : Prop} [Decidable p] (taken : p → SteadyEvent s u)
    (skipped : ¬ p → SteadyEvent s v) : SteadyEvent s (if p then u else v) := by
  split
  · next holds => exact taken holds
  · next fails => exact skipped fails

variable (s : State)

/-! ### Refusals and violations -/

theorem steady_refuse (t : Agent) (c : ResCode) : SteadyEvent s (s.refuse t c) :=
  (inner_refuse s t c).steady

theorem steady_done (t : Agent) (v : Word) : SteadyEvent s (s.done t v) :=
  (inner_done s t v).steady

theorem steady_supResult (c : ResCode) : SteadyEvent s (s.supResult c) :=
  .of_same

/-- A violation sets a kind of the supervisor in the supervisor's context. -/
theorem steady_recordViolation (t : Agent) (e : ViolationEvent) :
    SteadyEvent s (s.recordViolation t e) := by
  cases full : s.sup.capture with
  | none =>
    rw [recordViolation_empty s t e full]
    exact .after (inner_setNotice _ _ _ (.inl rfl)).steady .of_same
  | some c =>
    rw [recordViolation_full s t e full]
    exact .of_same

theorem steady_deny (t : Agent) (c : AgentCmd) (object : Nat) :
    SteadyEvent s (s.deny t c object) :=
  .after (steady_recordViolation _ t _) (steady_refuse s t .denied)

/-! ### The agents' commands -/

theorem steady_acquire (t : Agent) (l : LockId) : SteadyEvent s (acquire s t l) := by
  unfold acquire
  split
  · exact steady_refuse s t _
  · refine .ite (fun _ => steady_deny s t _ _) fun _ => ?_
    split
    · exact .after (inner_setResult _ t _).steady (inner_setLock s l _).steady
    · refine .ite (fun _ => (inner_acquireNested s t l _).steady) fun _ => ?_
      split
      · exact steady_refuse s t _
      · exact (inner_acquireWait s t l _).steady

theorem steady_attach (t : Agent) : SteadyEvent s (attach s t) := by
  unfold attach
  split
  · have attached : InnerEvent s
        (s.setAgent t { s.agent t with port := .attached, notices := 0, res := .doneWith 0 }) :=
      inner_setAgent s t _ rfl fun lawful => lawful.clear rfl rfl
    exact .ite (fun _ => attached.steady) fun _ => steady_deny s t _ _
  · exact steady_done s t _

theorem steady_send (t : Agent) (q : QueueId) : SteadyEvent s (send s t q) := by
  unfold send
  split
  · exact steady_refuse s t _
  · refine .ite (fun _ => steady_refuse s t _) fun _ =>
      .ite (fun _ => steady_deny s t _ _) fun _ => ?_
    split
    · exact steady_refuse s t _
    · exact steady_refuse s t _
    · exact .after (inner_reckonStoreEmpty _ s).steady (inner_sendOffer s t q _ _).steady

theorem steady_receive (t : Agent) (q : QueueId) : SteadyEvent s (receive s t q) := by
  unfold receive
  split
  · exact steady_refuse s t _
  · refine .ite (fun _ => steady_deny s t _ _) fun _ =>
      .ite (fun _ => steady_deny s t _ _) fun _ => ?_
    split
    · exact steady_refuse s t _
    · exact steady_refuse s t _
    · exact .after (inner_reckonStoreEmpty _ s).steady (inner_receiveSearch s t q _ _ _).steady

theorem steady_bindQueue (t : Agent) (q : QueueId) : SteadyEvent s (bindQueue s t q) := by
  refine .ite (fun _ => steady_deny s t _ _) fun _ => ?_
  split
  · exact steady_refuse s t _
  · exact steady_refuse s t _
  · split
    · exact .ite (fun _ => steady_done s t _) fun _ => steady_refuse s t _
    · exact .ite (fun _ => .after (steady_done _ t _) .of_same) fun _ => steady_refuse s t _

theorem steady_unbindQueue (t : Agent) (q : QueueId) : SteadyEvent s (unbindQueue s t q) :=
  .ite (fun _ => .after (steady_done _ t _) .of_same) fun _ => steady_deny s t _ _

theorem steady_watchQueue (t : Agent) (q : QueueId) : SteadyEvent s (watchQueue s t q) := by
  refine .ite (fun _ => steady_deny s t _ _) fun _ =>
    .ite (fun _ => steady_refuse s t _) fun _ => ?_
  split
  · exact steady_refuse s t _
  · exact (inner_setWatch s t _ _).steady

/-! ### The supervisor's commands -/

theorem steady_lockConfig (l : LockId) : SteadyEvent s (lockConfig s l) :=
  .ite (fun _ => steady_supResult s _) fun _ => .of_same

theorem steady_queueOpen (q : QueueId) : SteadyEvent s (queueOpen s q) :=
  .ite (fun _ => steady_supResult s _) fun _ => .ite (fun _ => steady_supResult s _) fun _ =>
    .ite (fun _ => steady_supResult s _) fun _ =>
      .after (inner_reckonStoreEmpty _ s).steady .of_same

theorem steady_queueClose (q : QueueId) : SteadyEvent s (queueClose s q) := by
  unfold queueClose
  split
  · exact steady_supResult s _
  · exact .of_same
  · exact .after (inner_reckonStoreEmpty _ s).steady (.after (steady_supResult _ _)
      (.after (inner_closeOpened _ q _).steady (inner_endWaiters s q _).steady))

theorem steady_queuePurge (q : QueueId) : SteadyEvent s (queuePurge s q) := by
  unfold queuePurge
  split
  · exact steady_supResult s _
  · exact steady_supResult s _
  · have ended := (inner_endWaiters s q .purging).steady
    exact .ite (fun _ => .after (steady_supResult _ _) ended) fun _ =>
      .after (u := endWaiters s q .purging) .of_same ended

theorem steady_retire (a : Agent) : SteadyEvent s (retire s a) := by
  have accepted : SteadyEvent s ((acceptRetire s a).supResult .done) :=
    .after (steady_supResult _ _) (inner_acceptRetire s a).steady
  unfold retire
  split
  · exact steady_supResult s _
  · exact steady_supResult s _
  · exact accepted
  · exact accepted

theorem steady_clearPart : SteadyEvent s (clearPart s) := by
  refine ⟨⟨rfl, rfl, rfl⟩, rfl, rfl, fun a lawful => ?_⟩
  rw [clearPart_agent]
  exact lawful.clear rfl rfl

/-! ### The commands as the bus brings them -/

section Commands

variable (t : Agent)

theorem steady_agentCommand {c : Option AgentCmd} {owner : State → State}
    (answer : SteadyEvent s (owner s)) : SteadyEvent s (acceptCommand s t c owner) :=
  acceptCommand_induct (steady_refuse s t) answer

theorem steady_lockCommand {c : Option AgentCmd} {f : State → LockId → State}
    (each : ∀ l, SteadyEvent s (f s l)) :
    SteadyEvent s (acceptCommand s t c fun s => withLock s t (f s)) :=
  steady_agentCommand s t (withLock_induct (steady_refuse s t _) each)

theorem steady_queueCommand {c : Option AgentCmd} {f : State → QueueId → State}
    (each : ∀ q, SteadyEvent s (f s q)) :
    SteadyEvent s (acceptCommand s t c fun s => withQueue s t (f s)) :=
  steady_agentCommand s t (withQueue_induct (steady_refuse s t _) each)

theorem steady_supCommand {n : Nat} {f : Fin n → State} (each : ∀ x, SteadyEvent s (f x)) :
    SteadyEvent s (withSupObject s n f) :=
  withSupObject_induct (steady_supResult s _) each

/-- Each of the twelve commands of an agent. -/
theorem steady_command (c : AgentCmd) : SteadyEvent s (effectOf (c.command t) s) := by
  cases c with
  | attach => exact steady_agentCommand s t (owner := (attach · t)) (steady_attach s t)
  | detach => exact steady_agentCommand s t (owner := (detach · t)) (inner_detach s t).steady
  | cancel => exact steady_agentCommand s t (owner := (cancel · t)) (inner_cancel s t).steady
  | acquire => exact steady_lockCommand s t (f := (acquire · t)) (steady_acquire s t)
  | release =>
    exact steady_lockCommand s t (f := (release · t)) fun l => (inner_release s t l).steady
  | renew => exact steady_lockCommand s t (f := (renew · t)) fun l => (inner_renew s t l).steady
  | send => exact steady_queueCommand s t (f := (send · t)) (steady_send s t)
  | receive => exact steady_queueCommand s t (f := (receive · t)) (steady_receive s t)
  | bind => exact steady_queueCommand s t (f := (bindQueue · t)) (steady_bindQueue s t)
  | unbind => exact steady_queueCommand s t (f := (unbindQueue · t)) (steady_unbindQueue s t)
  | watch => exact steady_queueCommand s t (f := (watchQueue · t)) (steady_watchQueue s t)
  | unwatch =>
    exact steady_queueCommand s t (f := (unwatchQueue · t)) fun q =>
      (inner_unwatchQueue s t q).steady

/-- Each of the nine commands of the supervisor. -/
theorem steady_supervisorCommand (c : SupCmd) : SteadyEvent s (effectOf c.command s) := by
  cases c with
  | lockConfig => exact steady_supCommand s (steady_lockConfig s)
  | queueOpen => exact steady_supCommand s (steady_queueOpen s)
  | queueClose => exact steady_supCommand s (steady_queueClose s)
  | queuePurge => exact steady_supCommand s (steady_queuePurge s)
  | retire => exact steady_supCommand s (steady_retire s)
  | quiesce | resume | ackViolation => exact .of_same
  | clear => exact steady_clearPart s

theorem steady_writeCmd (code : Word) : SteadyEvent s (writeCmd s t code) := by
  unfold writeCmd
  split
  · exact steady_agentCommand s t (InnerEvent.refl s).steady
  · exact steady_command s t .attach
  · exact steady_command s t .detach
  · exact steady_command s t .cancel
  · exact steady_command s t .acquire
  · exact steady_command s t .release
  · exact steady_command s t .renew
  · exact steady_command s t .send
  · exact steady_command s t .receive
  · exact steady_command s t .bind
  · exact steady_command s t .unbind
  · exact steady_command s t .watch
  · exact steady_command s t .unwatch

theorem steady_writeScmd (code : Word) : SteadyEvent s (writeScmd s code) := by
  unfold writeScmd
  split
  · exact steady_supResult s _
  · exact steady_supervisorCommand s .lockConfig
  · exact steady_supervisorCommand s .queueOpen
  · exact steady_supervisorCommand s .queueClose
  · exact steady_supervisorCommand s .queuePurge
  · exact steady_supervisorCommand s .retire
  · exact steady_supervisorCommand s .quiesce
  · exact steady_supervisorCommand s .resume
  · exact steady_supervisorCommand s .ackViolation
  · exact steady_supervisorCommand s .clear

/-- The bits that name no kind are ignored (R162). -/
theorem steady_writeEnable (v : Word) : SteadyEvent s (writeEnable s t v) := by
  refine ⟨⟨rfl, rfl, rfl⟩, rfl, rfl, fun a lawful => ?_⟩
  rw [writeEnable, setAgent_agent]
  split
  · next self =>
    subst self
    obtain ⟨present, -, others⟩ := lawful
    exact ⟨present, by simp [BitVec.and_assoc], others⟩
  · exact lawful

theorem steady_writeAgentReg (r : AgentReg) (v : Word) :
    SteadyEvent s (writeAgentReg s t r v) := by
  unfold writeAgentReg
  split
  · exact steady_writeCmd s t v
  · exact (inner_setContext s t _).steady
  · exact steady_writeEnable s t v
  · exact (inner_setContext s t _).steady
  · exact (inner_setContext s t _).steady
  · exact (inner_setContext s t _).steady
  all_goals exact .of_same

theorem steady_writeSupReg (r : SupReg) (v : Word) : SteadyEvent s (writeSupReg s r v) := by
  unfold writeSupReg
  split
  · exact steady_writeScmd s v
  all_goals exact .of_same

theorem steady_busWrite (off : Offset) (v : Word) : SteadyEvent s (busWrite s t off v) :=
  .ite
    (fun _ => .ite (fun _ => steady_writeSupReg s _ v) fun _ => steady_recordViolation s t _)
    fun _ => steady_writeAgentReg s t _ v

end Commands

theorem steady_lockTableTick : SteadyEvent s (lockTableTick s) :=
  .ite (fun _ => .of_same) fun _ => .after (inner_tickAllLocks _).steady .of_same

theorem steady_agentPortsTick : SteadyEvent s (agentPortsTick s) :=
  .ite (fun _ => .of_same) fun _ => .after (inner_tickAllPorts _).steady .of_same

/-- Every command but a tick, a REFCLK period and the edges of RESET#. -/
theorem steady_effectOf {c : Instr} (tick : c ≠ .tick) (period : c ≠ .refclkPeriodCounted)
    (reset : c ≠ .reset) (release : ∀ x, c ≠ .resetRelease x) : SteadyEvent s (effectOf c s) := by
  cases c with
  | tick => exact absurd rfl tick
  | refclkPeriodCounted => exact absurd rfl period
  | reset => exact absurd rfl reset
  | resetRelease x => exact absurd rfl (release x)
  | attach t => exact steady_command s t .attach
  | detach t => exact steady_command s t .detach
  | cancel t => exact steady_command s t .cancel
  | acquire t => exact steady_command s t .acquire
  | release t => exact steady_command s t .release
  | renew t => exact steady_command s t .renew
  | send t => exact steady_command s t .send
  | receive t => exact steady_command s t .receive
  | bind t => exact steady_command s t .bind
  | unbind t => exact steady_command s t .unbind
  | watch t => exact steady_command s t .watch
  | unwatch t => exact steady_command s t .unwatch
  | lockConfig => exact steady_supervisorCommand s .lockConfig
  | queueOpen => exact steady_supervisorCommand s .queueOpen
  | queueClose => exact steady_supervisorCommand s .queueClose
  | queuePurge => exact steady_supervisorCommand s .queuePurge
  | retire => exact steady_supervisorCommand s .retire
  | clear => exact steady_supervisorCommand s .clear
  | quiesce | resume | ackViolation | tickdivWrite | freezeAssert | freezeRelease => exact .of_same
  | noteRead t => exact (inner_clearNotices s t).steady
  | nenWrite t v => exact steady_writeEnable s t v
  | tickloRead t | tickhiRead t => exact (inner_setContext s t _).steady
  | supervisorPageWriteDenied t off v | registerWrite t off v => exact steady_busWrite s t off v
  | leaseCountdown => exact steady_lockTableTick s
  | leaseExpiry l => exact .ite (fun _ => steady_lockTableTick s) fun _ => .of_same
  | deadlineCountdown => exact steady_agentPortsTick s
  | deadlineExpiry a => exact .ite (fun _ => steady_agentPortsTick s) fun _ => .of_same
  | lockSweepStep => exact (inner_lockSweepStep s).steady
  | queueSweepStep => exact (inner_queueSweepStep s).steady
  | purgeStep => exact (inner_purgeStep s).steady
  | unknownAgentCommandCode t code => exact steady_writeCmd s t code
  | unknownSupervisorCommandCode code => exact steady_writeScmd s code

/-! ### Every command -/

variable {s} {s' : State} {c : Instr}

theorem exec_steady (run : exec c s = .next s') (tick : c ≠ .tick)
    (period : c ≠ .refclkPeriodCounted) (reset : c ≠ .reset) (release : ∀ x, c ≠ .resetRelease x) :
    SteadyEvent s s' := by
  have effect := steady_effectOf s tick period reset release
  cases exec_ending run with
  | dropped => exact .of_same
  | unanswered => exact .of_same
  | taken => exact effect
  | answered data => exact .after .of_same effect

/-- What a command can do to the time base, the contexts and the pin RESET#. -/
inductive TimedChange (s s' : State) : Prop
  | steady (event : SteadyEvent s s')
  | counted (f : TimeBase → TimeBase) (period : f = TimeBase.period ∨ f = TimeBase.tick)
      (eq : s' = timeEvent s f)
  | reset (eq : s' = enterReset s)
  | release (x : Agent) (eq : s' = releaseReset s x)

theorem exec_timedChange (run : exec c s = .next s') : TimedChange s s' := by
  by_cases tick : c = .tick
  · subst tick
    rcases blockEvent_next ((exec_tick s).symm.trans run) with rfl | rfl
    · exact .steady .of_same
    · exact .counted _ (.inr rfl) rfl
  by_cases period : c = .refclkPeriodCounted
  · subst period
    rcases blockEvent_next ((exec_refclkPeriodCounted s).symm.trans run) with rfl | rfl
    · exact .steady .of_same
    · exact .counted _ (.inl rfl) rfl
  by_cases reset : c = .reset
  · subst reset
    exact .reset (Host.Outcome.next.inj run).symm
  by_cases release : ∃ x, c = .resetRelease x
  · obtain ⟨x, rfl⟩ := release
    exact .release x (Host.Outcome.next.inj run).symm
  · exact .steady (exec_steady run tick period reset fun x eq => release ⟨x, eq⟩)

theorem releaseReset_frame (x : Agent) :
    (releaseReset s x).time = s.time ∧ (releaseReset s x).agents = s.agents := by
  unfold releaseReset
  split <;> exact ⟨rfl, rfl⟩

/-- Settles O5: a period and a tick by their cases, and every other command but RESET leaves the count. -/
theorem timeBaseCountsAndTicks : Obligations.TimeBaseCountsAndTicks := by
  refine ⟨fun s running => ⟨fun frozen => ?_, fun counting more => ?_, fun counting last => ?_⟩,
    fun s running => ⟨fun frozen => ?_, fun counting => ?_⟩, fun v s running => ?_,
    fun c s s' run tick period reset => ?_, fun b more => ?_⟩
  · rw [exec_refclkPeriodCounted_running running, timeEvent_frozen _ frozen]
  · rw [exec_refclkPeriodCounted_running running, timeEvent_counting _ counting,
      TimeBase.period_of_lt more]
  · rw [exec_refclkPeriodCounted_running running, timeEvent_counting _ counting,
      TimeBase.period_of_ge last]
    rfl
  · rw [exec_tick_running running, timeEvent_frozen _ frozen]
  · rw [exec_tick_running running, timeEvent_counting _ counting]
    rfl
  · rw [exec_tickdivWrite, writeCycle_running s _ running]
    rfl
  · by_cases release : ∃ x, c = .resetRelease x
    · obtain ⟨x, rfl⟩ := release
      obtain rfl := Host.Outcome.next.inj run
      rw [(releaseReset_frame x).1]
    · exact (exec_steady run tick period reset fun x eq => release ⟨x, eq⟩).interval.count
  · obtain ⟨n, rest⟩ := Nat.exists_eq_add_of_lt more
    rw [show b.length - b.counter = n + 1 by omega]
    exact TimeBase.period_iterate n b (by omega)

/-! ### The law of time -/

theorem intervalOf_bounds (d : Word) : 16 ≤ intervalOf d ∧ intervalOf d ≤ 1048576 := by
  unfold intervalOf
  split
  · omega
  · next nonzero =>
    have pos : d.toNat ≠ 0 := fun e => nonzero (BitVec.eq_of_toNat_eq e)
    have bound := d.isLt
    omega

theorem timeLaw_tick {b : TimeBase} :
    b.tick.counter < b.tick.length ∧ 16 ≤ b.tick.length ∧ b.tick.length ≤ 1048576 := by
  obtain ⟨low, high⟩ := intervalOf_bounds b.tickdiv
  exact ⟨Nat.lt_of_lt_of_le (show 0 < 16 by decide) low, low, high⟩

theorem timeLaw_timeEvent {f : TimeBase → TimeBase}
    (period : f = TimeBase.period ∨ f = TimeBase.tick) (time : TimeLaw s) :
    TimeLaw (timeEvent s f) := by
  obtain ⟨below, low, high⟩ := time
  unfold timeEvent
  split
  · exact ⟨below, low, high⟩
  · rcases period with rfl | rfl
    · by_cases more : s.time.counter + 1 < s.time.length
      · rw [TimeBase.period_of_lt more]
        exact ⟨more, low, high⟩
      · rw [TimeBase.period_of_ge (Nat.not_lt.mp more)]
        exact timeLaw_tick
    · exact timeLaw_tick

theorem TimedChange.timeLaw (change : TimedChange s s') (time : TimeLaw s) : TimeLaw s' := by
  cases change with
  | steady event =>
    obtain ⟨counter, length, -⟩ := event.interval
    rwa [TimeLaw, counter, length]
  | counted f period eq => exact eq ▸ timeLaw_timeEvent period time
  | reset eq =>
    subst eq
    exact lawsHoldAtReset.time
  | release x eq =>
    subst eq
    rwa [TimeLaw, (releaseReset_frame x).1]

/-! ### The laws of the notices and of RESET# -/

theorem timeEvent_frame (f : TimeBase → TimeBase) :
    (timeEvent s f).agents = s.agents ∧ (timeEvent s f).sup = s.sup ∧
    (timeEvent s f).pins = s.pins := by
  unfold timeEvent
  split <;> exact ⟨rfl, rfl, rfl⟩

theorem noticeLaw_of_same (agents : s'.agents = s.agents) (tag : s'.sup.tag = s.sup.tag)
    (notices : NoticeLaw s) : NoticeLaw s' := by
  have agent : ∀ a, s'.agent a = s.agent a := fun a => congrArg (·.get a) agents
  rw [noticeLaw_iff] at notices ⊢
  intro a
  rw [agent, tag]
  exact notices a

/-- The rise of RESET# moves the tag while no context has a notice. -/
theorem noticeLaw_releaseReset (x : Agent) (reset : ResetLaw s) (notices : NoticeLaw s) :
    NoticeLaw (releaseReset s x) := by
  cases held : s.pins.resetHeld with
  | false =>
    have stays : releaseReset s x = s := if_neg (by simp [held])
    rwa [stays]
  | true =>
    obtain ⟨agents, -⟩ := reset held
    rw [noticeLaw_iff]
    intro a
    have initial : (releaseReset s x).agent a = .initial := by
      rw [State.agent, (releaseReset_frame x).2, agents]
      exact reset_agent a
    rw [initial]
    exact noticesLawful_initial

theorem TimedChange.noticeLaw (change : TimedChange s s') (reset : ResetLaw s)
    (notices : NoticeLaw s) : NoticeLaw s' := by
  cases change with
  | steady event =>
    rw [noticeLaw_iff] at notices ⊢
    exact fun a => event.tag ▸ event.notices a (notices a)
  | counted f period eq =>
    obtain ⟨agents, sup, -⟩ := timeEvent_frame (s := s) f
    subst eq
    exact noticeLaw_of_same agents (by rw [sup]) notices
  | reset eq =>
    subst eq
    exact noticeLaw_iff.mpr fun a => (enterReset_agent s a).symm ▸ noticesLawful_initial
  | release x eq =>
    subst eq
    exact noticeLaw_releaseReset x reset notices

/-- A part that was not in reset is in reset only after RESET. -/
theorem TimedChange.resetLaw (change : TimedChange s s') (running : Running s) : ResetLaw s' := by
  intro held
  cases change with
  | steady event => simp [event.held, running] at held
  | counted f period eq =>
    subst eq
    rw [(timeEvent_frame f).2.2, running] at held
    cases held
  | reset eq =>
    subst eq
    exact ⟨rfl, rfl, rfl, rfl, rfl, rfl, rfl, rfl⟩
  | release x eq =>
    subst eq
    rw [releaseReset, if_neg (by simp [running]), running] at held
    cases held

/-- In reset nothing changes but the pins and the record of the bus. -/
theorem resetLaw_of_held (held : s.pins.resetHeld = true) (reset : ResetLaw s)
    (run : exec c s = .next s') : ResetLaw s' := by
  cases c with
  | reset =>
    obtain rfl := Host.Outcome.next.inj run
    exact fun _ => ⟨rfl, rfl, rfl, rfl, rfl, rfl, rfl, rfl⟩
  | resetRelease x =>
    obtain rfl := Host.Outcome.next.inj run
    rw [releaseReset, if_pos held]
    exact nofun
  | freezeAssert | freezeRelease =>
    obtain rfl := Host.Outcome.next.inj run
    exact fun _ => reset held
  | tick | refclkPeriodCounted | leaseCountdown | leaseExpiry | deadlineCountdown | deadlineExpiry
    | lockSweepStep | queueSweepStep | purgeStep =>
    rw [exec_blockEvent_held held rfl] at run
    exact Host.Outcome.next.inj run ▸ reset
  | _ =>
    rw [exec_busCycle_held held rfl] at run
    obtain rfl := Host.Outcome.next.inj run
    exact fun _ => reset held

theorem exec_keeps_resetLaw (reset : ResetLaw s) (run : exec c s = .next s') : ResetLaw s' := by
  cases held : s.pins.resetHeld with
  | false => exact (exec_timedChange run).resetLaw held
  | true => exact resetLaw_of_held held reset run

/-- Settles O54: a tick starts an interval within the bounds, and kinds of the supervisor go to its context alone, which moves only while no notice is set. -/
theorem everyStepKeepsTimeAndNoticeLaws : Obligations.EveryStepKeepsTimeAndNoticeLaws := by
  refine ⟨fun s s' time run => ?_, fun s s' reset notices run => ?_⟩
  · exact step_keeps_of_exec (P := TimeLaw) (fun _ _ time => time)
      (fun _ _ _ time run => (exec_timedChange run).timeLaw time) time run
  · exact step_keeps_of_exec (P := fun s => ResetLaw s ∧ NoticeLaw s) (fun _ _ laws => laws)
      (fun _ _ _ ⟨reset, notices⟩ run =>
        ⟨exec_keeps_resetLaw reset run, (exec_timedChange run).noticeLaw reset notices⟩)
      ⟨reset, notices⟩ run

end Sys2Proof.Machine

/-! What an event can do to the agents' states and to the wait lists: the waits that end leave their lists, and a wait that starts joins its list. Both keep the wait-list law (R114, Table 6-2). -/

namespace Sys2Proof.Machine

/-! ### One agent's state -/

/-- The state `p'` after `p` is no new wait: what it waits for, `p` waited for. -/
def Port.WaitsAs (p p' : Port) : Prop :=
  ∀ w', p' = .waiting w' → ∃ w, p = .waiting w ∧ w'.want = w.want

/-- The state stays, but that a wait may come nearer to its deadline, or end ATTACHED. -/
inductive Port.Eases : Port → Port → Prop
  | same (p : Port) : Eases p p
  | counted {w w' : Wait} (want : w'.want = w.want) : Eases (.waiting w) (.waiting w')
  | ended (w : Wait) : Eases (.waiting w) .attached

section OnePort

variable {p p' p'' : Port}

theorem Port.Eases.trans (first : p.Eases p') (second : p'.Eases p'') : p.Eases p'' := by
  cases first with
  | same => exact second
  | ended w => cases second; exact .ended w
  | counted want =>
    cases second with
    | same => exact .counted want
    | counted want' => exact .counted (want'.trans want)
    | ended => exact .ended _

theorem Port.Eases.waitsAs (eases : p.Eases p') : p.WaitsAs p' := by
  rintro w' waits
  cases eases with
  | same => exact ⟨w', waits, rfl⟩
  | counted want => cases waits; exact ⟨_, rfl, want⟩
  | ended => cases waits

theorem Port.Eases.retiring_iff (eases : p.Eases p') : p' = .retiring ↔ p = .retiring := by
  cases eases <;> simp

theorem Port.isWaiting_iff : p.isWaiting = true ↔ ∃ w, p = .waiting w := by
  cases p <;> simp [Port.isWaiting]

theorem Port.waitsAs_of_idle (idle : p'.isWaiting = false) : p.WaitsAs p' := by
  rintro w rfl
  cases idle

end OnePort

section OneContext

variable {c c' : AgentCtx} (waitsAs : c.port.WaitsAs c'.port)
include waitsAs

theorem AgentCtx.awaitedLock_of_waitsAs :
    c'.awaitedLock = if c'.port.isWaiting then c.awaitedLock else none := by
  cases port' : c'.port with
  | waiting w' =>
    obtain ⟨w, port, want⟩ := waitsAs w' port'
    simp [AgentCtx.awaitedLock, Port.isWaiting, port', port, want]
  | _ => simp [AgentCtx.awaitedLock, Port.isWaiting, port']

theorem AgentCtx.awaitedSend_of_waitsAs :
    c'.awaitedSend = if c'.port.isWaiting then c.awaitedSend else none := by
  cases port' : c'.port with
  | waiting w' =>
    obtain ⟨w, port, want⟩ := waitsAs w' port'
    simp [AgentCtx.awaitedSend, Port.isWaiting, port', port, want]
  | _ => simp [AgentCtx.awaitedSend, Port.isWaiting, port']

end OneContext

/-- Does agent `a` wait? -/
def State.waits (s : State) (a : Agent) : Bool :=
  (s.agent a).port.isWaiting

section OneAgent

variable {s s' : State} {a : Agent}

theorem waits_of_port {w : Wait} (port : (s.agent a).port = .waiting w) : s.waits a = true := by
  rw [State.waits, port]
  rfl

theorem awaitedReceive_of_waitsAs (waitsAs : (s.agent a).port.WaitsAs (s'.agent a).port) :
    s'.awaitedReceive a = if s'.waits a then s.awaitedReceive a else none := by
  cases port' : (s'.agent a).port with
  | waiting w' =>
    obtain ⟨w, port, want⟩ := waitsAs w' port'
    simp [State.awaitedReceive, State.waits, Port.isWaiting, port', port, want]
  | _ => simp [State.awaitedReceive, State.waits, Port.isWaiting, port']

theorem waits_of_awaitedLock {l : LockId} (awaits : (s.agent a).awaitedLock = some l) :
    s.waits a = true := by
  cases port : (s.agent a).port with
  | waiting w => exact waits_of_port port
  | _ => simp [AgentCtx.awaitedLock, port] at awaits

theorem waits_of_awaitedReceive {x : QueueId × Receiver} (awaits : s.awaitedReceive a = some x) :
    s.waits a = true := by
  cases port : (s.agent a).port with
  | waiting w => exact waits_of_port port
  | _ => simp [State.awaitedReceive, port] at awaits

theorem waits_of_awaitedSend (awaits : (s.agent a).awaitedSend.isSome = true) :
    s.waits a = true := by
  cases port : (s.agent a).port with
  | waiting w => exact waits_of_port port
  | _ => simp [AgentCtx.awaitedSend, port] at awaits

/-- An agent that does not wait awaits nothing. -/
theorem awaits_nothing (idle : s.waits a = false) :
    (s.agent a).awaitedLock = none ∧ (s.agent a).awaitedSend = none ∧
      s.awaitedReceive a = none := by
  cases port : (s.agent a).port with
  | waiting w => simp [waits_of_port port] at idle
  | _ => simp [AgentCtx.awaitedLock, AgentCtx.awaitedSend, State.awaitedReceive, port]

end OneAgent

/-! ### The agents in the wait lists -/

section Listed

variable {s : State} {a : Agent} (wait : WaitLaw s)
include wait

theorem waits_of_mem_waiters {l : LockId} (mem : a ∈ (s.lock l).waiters) : s.waits a = true := by
  obtain ⟨waiters, -⟩ := wait
  exact waits_of_awaitedLock ((waiters a l).mp mem)

theorem waits_of_mem_receivers {q : QueueId} {r : Receiver} (mem : r ∈ (s.queue q).receivers) :
    s.waits r.agent = true := by
  obtain ⟨-, -, -, receivers, -⟩ := wait
  exact waits_of_awaitedReceive (receivers q r mem)

theorem waits_of_mem_senderWait (mem : a ∈ s.senderWait) : s.waits a = true := by
  obtain ⟨-, -, -, -, -, -, senders, -⟩ := wait
  exact waits_of_awaitedSend ((senders a).mp mem)

/-- Lists without the agents that do not wait any more are the lists without `a`, when `a` alone may have ended its wait. -/
theorem listed_filter {p : Agent → Bool} (others : ∀ x, s.waits x = true → p x = (x != a)) :
    (∀ l, (s.lock l).waiters.filter p = (s.lock l).waiters.filter (· != a)) ∧
    (∀ q, ((s.queue q).receivers.filter fun r => p r.agent) =
      (s.queue q).receivers.filter (·.agent != a)) ∧
    s.senderWait.filter p = s.senderWait.filter (· != a) :=
  ⟨fun _ => List.filter_congr fun _ mem => others _ (waits_of_mem_waiters wait mem),
    fun _ => List.filter_congr fun _ mem => others _ (waits_of_mem_receivers wait mem),
    List.filter_congr fun _ mem => others _ (waits_of_mem_senderWait wait mem)⟩

end Listed

/-! ### Waits that end -/

/-- No wait starts, the wait lists keep the agents that still wait, and a lock goes only to an agent that waits for none. -/
structure WaitsKept (s s' : State) : Prop where
  port : ∀ a, (s.agent a).port.WaitsAs (s'.agent a).port
  waiters : ∀ l, (s'.lock l).waiters = (s.lock l).waiters.filter s'.waits
  holder : ∀ l, ∀ h' ∈ (s'.lock l).hold,
    (∃ h ∈ (s.lock l).hold, h.holder = h'.holder) ∨ (s'.agent h'.holder).awaitedLock = none
  receivers : ∀ q,
    (s'.queue q).receivers = (s.queue q).receivers.filter fun r => s'.waits r.agent
  senders : s'.senderWait = s.senderWait.filter s'.waits

theorem WaitsKept.waitLaw {s s' : State} (kept : WaitsKept s s') (wait : WaitLaw s) :
    WaitLaw s' := by
  obtain ⟨waiters, waitersOnce, holder, receivers, received, receiversOnce, senders, sendersOnce⟩ :=
    wait
  have mem_waiters : ∀ x l, x ∈ (s'.lock l).waiters ↔ (s'.agent x).awaitedLock = some l := by
    intro x l
    rw [kept.waiters, List.mem_filter, waiters, AgentCtx.awaitedLock_of_waitsAs (kept.port x)]
    change _ ↔ (if s'.waits x then _ else _) = _
    cases s'.waits x <;> simp
  refine ⟨mem_waiters, fun l => ?_, fun l h' held mem => ?_, fun q r mem => ?_,
    fun x w awaits => ?_, fun q => ?_, fun x => ?_, ?_⟩
  · rw [kept.waiters]
    exact (waitersOnce l).filter _
  · rcases kept.holder l h' held with ⟨h, held, same⟩ | idle
    · rw [kept.waiters] at mem
      exact holder l h held (same ▸ List.mem_of_mem_filter mem)
    · simp [(mem_waiters _ l).mp mem] at idle
  · rw [kept.receivers] at mem
    obtain ⟨mem, stays⟩ := List.mem_filter.mp mem
    rw [awaitedReceive_of_waitsAs (kept.port r.agent), if_pos stays]
    exact receivers q r mem
  · have stays := waits_of_awaitedReceive awaits
    rw [awaitedReceive_of_waitsAs (kept.port x), if_pos stays] at awaits
    rw [kept.receivers]
    exact List.mem_filter.mpr
      ⟨received x w awaits, by rw [agent_of_awaitedReceive awaits]; exact stays⟩
  · rw [kept.receivers]
    exact (receiversOnce q).sublist (List.filter_sublist.map _)
  · rw [kept.senders, List.mem_filter, senders, AgentCtx.awaitedSend_of_waitsAs (kept.port x)]
    change _ ↔ Option.isSome (if s'.waits x then _ else _) = true
    cases s'.waits x <;> simp
  · rw [kept.senders]
    exact sendersOnce.filter _

/-- No wait ends, and the lists stay. -/
theorem WaitsKept.of_same {s s' : State} (wait : WaitLaw s)
    (port : ∀ a, (s.agent a).port.WaitsAs (s'.agent a).port) (waits : ∀ a, s'.waits a = s.waits a)
    (waiters : ∀ l, (s'.lock l).waiters = (s.lock l).waiters)
    (holder : ∀ l, ∀ h' ∈ (s'.lock l).hold,
      (∃ h ∈ (s.lock l).hold, h.holder = h'.holder) ∨ (s'.agent h'.holder).awaitedLock = none)
    (receivers : ∀ q, (s'.queue q).receivers = (s.queue q).receivers)
    (senders : s'.senderWait = s.senderWait) : WaitsKept s s' where
  port := port
  holder := holder
  waiters l := by
    rw [waiters, List.filter_eq_self.mpr]
    exact fun a mem => (waits a).trans (waits_of_mem_waiters wait mem)
  receivers q := by
    rw [receivers, List.filter_eq_self.mpr]
    exact fun r mem => (waits r.agent).trans (waits_of_mem_receivers wait mem)
  senders := by
    rw [senders, List.filter_eq_self.mpr]
    exact fun a mem => (waits a).trans (waits_of_mem_senderWait wait mem)

/-- An agent leaves its wait list, if it stands in one, and does not wait any more (R114). -/
theorem waitsKept_leave {s : State} (wait : WaitLaw s) (a : Agent) (c : AgentCtx)
    (idle : c.port.isWaiting = false) : WaitsKept s ((s.leaveWaitList a).setAgent a c) := by
  rw [leaveWaitList_eq_withoutWaiter s a wait]
  have waits : ∀ x, s.waits x = true →
      ((s.withoutWaiter a).setAgent a c).waits x = (x != a) := by
    intro x waits
    rw [State.waits, setAgent_agent]
    split
    · next self => rw [idle, self, bne_self_eq_false]
    · next other => rw [bne_iff_ne.mpr other]; exact waits
  obtain ⟨waiters, receivers, senders⟩ := listed_filter wait waits
  refine ⟨fun x => ?_, fun l => ?_, fun l h held => ?_, fun q => ?_, senders.symm⟩
  · rw [setAgent_agent]
    split
    · exact Port.waitsAs_of_idle idle
    · exact (Port.Eases.same _).waitsAs
  · rw [waiters]
    exact congrArg Lock.waiters (Table.get_map s.locks _ l)
  · refine .inl ⟨h, ?_, rfl⟩
    rwa [setAgent_lock, State.lock, State.withoutWaiter, Table.get_map] at held
  · rw [receivers]
    exact congrArg Queue.receivers (Table.get_map s.queues _ q)

theorem leaveWaitList_of_idle {s : State} {a : Agent} (idle : s.waits a = false) :
    s.leaveWaitList a = s := by
  unfold State.leaveWaitList
  split
  · next w port => simp [waits_of_port port] at idle
  · rfl

/-- An agent that does not wait goes to another state in which it does not. -/
theorem waitsKept_setAgent_idle {s : State} (wait : WaitLaw s) {a : Agent} {c : AgentCtx}
    (before : s.waits a = false) (after : c.port.isWaiting = false) :
    WaitsKept s (s.setAgent a c) := by
  have kept := waitsKept_leave wait a c after
  rwa [leaveWaitList_of_idle before] at kept

/-! ### A wait that starts -/

/-- The entries that a pending RECEIVE adds to the list of queue `q`: its own, or none. -/
def receiverEntry (q : QueueId) (awaits : Option (QueueId × Receiver)) : List Receiver :=
  match awaits with
  | none => []
  | some x => if x.1 = q then [x.2] else []

theorem mem_receiverEntry {q : QueueId} {awaits : Option (QueueId × Receiver)} {r : Receiver} :
    r ∈ receiverEntry q awaits ↔ awaits = some (q, r) := by
  cases awaits with
  | none => simp [receiverEntry]
  | some x =>
    obtain ⟨q', r'⟩ := x
    by_cases here : q' = q
    · simp [receiverEntry, here, eq_comm]
    · simp [receiverEntry, here]

theorem receiverEntry_once (q : QueueId) (awaits : Option (QueueId × Receiver)) :
    ((receiverEntry q awaits).map (·.agent)).Nodup := by
  unfold receiverEntry
  split
  · exact List.nodup_nil
  · split
    · exact List.nodup_singleton _
    · exact List.nodup_nil

/-- Agent `t` starts to wait and joins the one list that belongs to what it waits for (R110, R114). -/
structure WaitStarts (s s' : State) (t : Agent) : Prop where
  idle : s.waits t = false
  others : ∀ a, a ≠ t → (s'.agent a).port = (s.agent a).port
  waiters : ∀ l, (s'.lock l).waiters =
    if (s'.agent t).awaitedLock = some l then (s.lock l).waiters ++ [t] else (s.lock l).waiters
  hold : ∀ l, (s'.lock l).hold = (s.lock l).hold
  notHolder : ∀ l, (s'.agent t).awaitedLock = some l → ∀ h ∈ (s.lock l).hold, h.holder ≠ t
  receivers : ∀ q, (s'.queue q).receivers =
    (s.queue q).receivers ++ receiverEntry q (s'.awaitedReceive t)
  senders : s'.senderWait =
    if (s'.agent t).awaitedSend.isSome then s.senderWait ++ [t] else s.senderWait

theorem WaitStarts.waitLaw {s s' : State} {t : Agent} (starts : WaitStarts s s' t)
    (wait : WaitLaw s) : WaitLaw s' := by
  have stranger : ∀ a, s.waits a = true → a ≠ t := fun a waits self => by
    simp [self, starts.idle] at waits
  obtain ⟨lockIdle, sendIdle, recvIdle⟩ := awaits_nothing starts.idle
  have same : ∀ a, a ≠ t → (s'.agent a).awaitedLock = (s.agent a).awaitedLock ∧
      (s'.agent a).awaitedSend = (s.agent a).awaitedSend ∧
      s'.awaitedReceive a = s.awaitedReceive a := fun a other => by
    simp [AgentCtx.awaitedLock, AgentCtx.awaitedSend, State.awaitedReceive, starts.others a other]
  have ofWaiters := fun a l => waits_of_mem_waiters (a := a) (l := l) wait
  have ofReceivers := fun q r => waits_of_mem_receivers (q := q) (r := r) wait
  have ofSenders := fun a => waits_of_mem_senderWait (a := a) wait
  obtain ⟨waiters, waitersOnce, holder, receivers, received, receiversOnce, senders, sendersOnce⟩ :=
    wait
  refine ⟨fun a l => ?_, fun l => ?_, fun l h held => ?_, fun q r mem => ?_, fun a x awaits => ?_,
    fun q => ?_, fun a => ?_, ?_⟩
  · rw [starts.waiters]
    by_cases self : a = t
    · subst self
      have absent : a ∉ (s.lock l).waiters := fun mem => stranger a (ofWaiters a l mem) rfl
      split <;> simp [*]
    · rw [(same a self).1, ← waiters]
      split <;> simp [self]
  · rw [starts.waiters]
    split
    · exact List.nodup_append.mpr ⟨waitersOnce l, List.nodup_singleton t, fun a mem b only =>
        List.mem_singleton.mp only ▸ stranger a (ofWaiters a l mem)⟩
    · exact waitersOnce l
  · rw [starts.hold] at held
    rw [starts.waiters]
    split
    · next joins =>
      simp only [List.mem_append, List.mem_singleton, not_or]
      exact ⟨holder l h held, starts.notHolder l joins h held⟩
    · exact holder l h held
  · rw [starts.receivers] at mem
    rcases List.mem_append.mp mem with old | new
    · rw [(same _ (stranger _ (ofReceivers q r old))).2.2]
      exact receivers q r old
    · have awaits := mem_receiverEntry.mp new
      rw [agent_of_awaitedReceive awaits]
      exact awaits
  · rw [starts.receivers]
    by_cases self : a = t
    · subst self
      exact List.mem_append_right _ (mem_receiverEntry.mpr awaits)
    · rw [(same a self).2.2] at awaits
      exact List.mem_append_left _ (received a x awaits)
  · rw [starts.receivers, List.map_append]
    refine List.nodup_append.mpr ⟨receiversOnce q, receiverEntry_once q _, fun a old b new => ?_⟩
    obtain ⟨r, mem, rfl⟩ := List.mem_map.mp old
    obtain ⟨r', mem', rfl⟩ := List.mem_map.mp new
    rw [agent_of_awaitedReceive (mem_receiverEntry.mp mem')]
    exact stranger _ (ofReceivers q r mem)
  · rw [starts.senders]
    by_cases self : a = t
    · subst self
      have absent : a ∉ s.senderWait := fun mem => stranger a (ofSenders a mem) rfl
      split <;> simp [*]
    · rw [(same a self).2.1, ← senders]
      split <;> simp [self]
  · rw [starts.senders]
    split
    · exact List.nodup_append.mpr ⟨sendersOnce, List.nodup_singleton t, fun a mem b only =>
        List.mem_singleton.mp only ▸ stranger a (ofSenders a mem)⟩
    · exact sendersOnce

end Sys2Proof.Machine

/-! Writes of the register window: what a write of CMD and of SCMD starts (R108, R148), and the registers that even offsets reach (Tables 10-1 and 10-2). -/

namespace Sys2Proof.Machine

variable {s : State} {t : Agent} {code : Word}

/-! ### Writes of CMD and SCMD -/

theorem writeCmd_unknown (unknown : AgentCmd.ofCode code = none) :
    writeCmd s t code = acceptCommand s t none id := by
  simp only [writeCmd, unknown]
  rfl

theorem writeCmd_known {c : AgentCmd} (known : AgentCmd.ofCode code = some c) :
    writeCmd s t code = effectOf (c.command t) s := by
  simp only [writeCmd, known]
  cases c <;> rfl

theorem writeScmd_unknown (unknown : SupCmd.ofCode code = none) :
    writeScmd s code = s.supResult .badCommand := by
  simp only [writeScmd, unknown]

theorem writeScmd_known {c : SupCmd} (known : SupCmd.ofCode code = some c) :
    writeScmd s code = effectOf c.command s := by
  simp only [writeScmd, known]
  cases c <;> rfl

/-! ### The offsets of CMD and SCMD -/

variable {off : Offset}

/-- The bus has no A0, and an even offset loses nothing (log 15). -/
theorem Offset.even_of_even (even : off.getLsbD 0 = false) : Offset.even off = off := by
  have mask : ∀ i : Fin 8, i ≠ 0 → (0xFE : Offset).getLsbD i.val = true := by decide
  refine BitVec.eq_of_getLsbD_eq fun i low => ?_
  rw [Offset.even, BitVec.getLsbD_and]
  by_cases zero : i = 0
  · rw [zero, even, Bool.false_and]
  · rw [mask ⟨i, low⟩ fun same => zero (congrArg Fin.val same), Bool.and_true]

theorem AgentReg.even_of_cmd (cmd : AgentReg.ofOffset off = .cmd) : Offset.even off = 0 := by
  unfold AgentReg.ofOffset at cmd
  split at cmd
  · next zero => exact BitVec.eq_of_toNat_eq zero
  all_goals cases cmd

theorem SupReg.even_of_scmd (scmd : SupReg.ofOffset off = .scmd) : Offset.even off = 0x80 := by
  unfold SupReg.ofOffset at scmd
  split at scmd
  · next first => exact BitVec.eq_of_toNat_eq first
  all_goals cases scmd

/-- A REGISTER_WRITE of the table writes neither CMD nor SCMD. -/
theorem ne_cmd_of_plainWriteOffset (plain : plainWriteOffset off = true) :
    AgentReg.ofOffset off ≠ .cmd ∧ SupReg.ofOffset off ≠ .scmd := by
  simp only [plainWriteOffset, Bool.and_eq_true, Bool.not_eq_true', Bool.or_eq_false_iff,
    beq_eq_false_iff_ne] at plain
  obtain ⟨even, ⟨⟨notCmd, -⟩, notScmd⟩, -⟩ := plain
  rw [← Offset.even_of_even even] at notCmd notScmd
  exact ⟨fun cmd => notCmd (AgentReg.even_of_cmd cmd),
    fun scmd => notScmd (SupReg.even_of_scmd scmd)⟩

end Sys2Proof.Machine

/-! The events that start no wait and move no agent along Table 6-2 but out of its wait: what each operation does to the agents' states and the wait lists, one lemma each (R114, R115). -/

namespace Sys2Proof.Machine

/-- The wait lists stay lawful, each agent's state stays but for the end of its wait, and no job comes or goes. -/
structure Easing (s s' : State) : Prop where
  wait : WaitLaw s'
  port : ∀ a, (s.agent a).port.Eases (s'.agent a).port
  engine : s'.engine = s.engine
  purging : ∀ q, (s'.queue q).isPurging = (s.queue q).isPurging

/-- Two events in sequence: the second one starts where the wait lists are lawful. -/
theorem Easing.andThen {s u s' : State} (first : Easing s u)
    (next : WaitLaw u → Easing u s') : Easing s s' where
  wait := (next first.wait).wait
  port a := (first.port a).trans ((next first.wait).port a)
  engine := (next first.wait).engine.trans first.engine
  purging q := ((next first.wait).purging q).trans (first.purging q)

/-- Waits that end, with the states and the jobs that go with them. -/
theorem WaitsKept.easing {s s' : State} (kept : WaitsKept s s') (wait : WaitLaw s)
    (port : ∀ a, (s.agent a).port.Eases (s'.agent a).port) (engine : s'.engine = s.engine)
    (purging : ∀ q, (s'.queue q).isPurging = (s.queue q).isPurging) : Easing s s' :=
  ⟨kept.waitLaw wait, port, engine, purging⟩

theorem Easing.ite {s u v : State} {p : Prop} [Decidable p] (taken : p → Easing s u)
    (skipped : ¬ p → Easing s v) : Easing s (if p then u else v) := by
  split
  · next holds => exact taken holds
  · next fails => exact skipped fails

section Updates

variable {s : State} (wait : WaitLaw s)
include wait

theorem Easing.refl : Easing s s :=
  ⟨wait, fun _ => .same _, rfl, fun _ => rfl⟩

theorem Easing.foldl {β : Type} {f : State → β → State}
    (each : ∀ s b, WaitLaw s → Easing s (f s b)) (entries : List β) :
    Easing s (entries.foldl f s) := by
  induction entries generalizing s with
  | nil => exact .refl wait
  | cons b rest ih => exact (each s b wait).andThen fun wait => ih wait

/-- Neither an agent's state, nor a lock, nor a wait list, nor a job changes. -/
theorem Easing.of_fields {s' : State}
    (port : ∀ a, (s'.agent a).port = (s.agent a).port := by exact fun _ => rfl)
    (locks : s'.locks = s.locks := by rfl)
    (receivers : ∀ q, (s'.queue q).receivers = (s.queue q).receivers := by exact fun _ => rfl)
    (purging : ∀ q, (s'.queue q).isPurging = (s.queue q).isPurging := by exact fun _ => rfl)
    (senders : s'.senderWait = s.senderWait := by rfl) (engine : s'.engine = s.engine := by rfl) :
    Easing s s' := by
  have lock : ∀ l, s'.lock l = s.lock l := fun l => congrArg (·.get l) locks
  refine (WaitsKept.of_same wait (fun a => ?_) (fun a => ?_) (fun l => by rw [lock])
    (fun l h held => ?_) receivers senders).easing wait (fun a => ?_) engine purging
  · rw [port]
    exact (Port.Eases.same _).waitsAs
  · rw [State.waits, port]
    rfl
  · exact .inl ⟨h, lock l ▸ held, rfl⟩
  · rw [port]
    exact .same _

/-- A context whose wait does not end. -/
theorem easing_setContext (a : Agent) (c : AgentCtx) (port : (s.agent a).port.Eases c.port)
    (waits : c.port.isWaiting = s.waits a) : Easing s (s.setAgent a c) := by
  have eases : ∀ x, (s.agent x).port.Eases ((s.setAgent a c).agent x).port := fun x => by
    rw [setAgent_agent]
    split
    · next self => exact self ▸ port
    · exact .same _
  refine (WaitsKept.of_same wait (fun x => (eases x).waitsAs) (fun x => ?_) (fun _ => rfl)
    (fun _ h held => .inl ⟨h, held, rfl⟩) (fun _ => rfl) rfl).easing wait eases rfl fun _ => rfl
  rw [State.waits, setAgent_agent]
  split
  · next self => rw [waits, self]
  · rfl

theorem easing_setAgent (a : Agent) (c : AgentCtx)
    (port : c.port = (s.agent a).port := by rfl) : Easing s (s.setAgent a c) :=
  easing_setContext wait a c (port ▸ .same _) (by rw [port]; rfl)

theorem easing_setLock (l : LockId) (k : Lock) (waiters : k.waiters = (s.lock l).waiters)
    (holder : ∀ h' ∈ k.hold, (∃ h ∈ (s.lock l).hold, h.holder = h'.holder) ∨
      (s.agent h'.holder).awaitedLock = none) : Easing s (s.setLock l k) := by
  refine (WaitsKept.of_same (s' := s.setLock l k) wait (fun _ => (Port.Eases.same _).waitsAs)
    (fun _ => rfl) (fun x => ?_) (fun x h' held => ?_) (fun _ => rfl) rfl).easing wait
    (fun _ => .same _) rfl fun _ => rfl
  · rw [setLock_lock]
    split
    · next self => rw [waiters, self]
    · rfl
  · rw [setLock_lock] at held
    split at held
    · next self => exact self ▸ holder h' held
    · exact .inl ⟨h', held, rfl⟩

/-- A HELD lock gets another depth or another lease, or becomes FREE. -/
theorem easing_rehold {l : LockId} {h : Hold} (k : Lock) (held : (s.lock l).hold = some h)
    (holder : ∀ h' ∈ k.hold, h'.holder = h.holder)
    (waiters : k.waiters = (s.lock l).waiters := by rfl) : Easing s (s.setLock l k) :=
  easing_setLock wait l k waiters fun h' held' => .inl ⟨h, held, (holder h' held').symm⟩

/-- The state of the queue may change in any way. -/
theorem waitLaw_setQueue (q : QueueId) (k : Queue)
    (receivers : k.receivers = (s.queue q).receivers := by rfl) : WaitLaw (s.setQueue q k) := by
  refine (WaitsKept.of_same (s' := s.setQueue q k) wait (fun _ => (Port.Eases.same _).waitsAs)
    (fun _ => rfl) (fun _ => rfl) (fun _ h held => .inl ⟨h, held, rfl⟩) (fun x => ?_)
    rfl).waitLaw wait
  rw [setQueue_queue]
  split
  · next self => rw [receivers, self]
  · rfl

theorem easing_setQueue (q : QueueId) (k : Queue)
    (receivers : k.receivers = (s.queue q).receivers := by rfl)
    (purging : k.isPurging = (s.queue q).isPurging := by rfl) : Easing s (s.setQueue q k) := by
  refine ⟨waitLaw_setQueue wait q k receivers, fun _ => .same _, rfl, fun x => ?_⟩
  rw [setQueue_queue]
  split
  · next self => rw [purging, self]
  · rfl

/-- A waiting agent leaves its wait list and is ATTACHED. -/
theorem easing_end {a : Agent} (waits : s.waits a = true) (c : AgentCtx)
    (attached : c.port = .attached := by rfl) :
    Easing s ((s.leaveWaitList a).setAgent a c) := by
  obtain ⟨agents, -, -, engine, -⟩ := leaveWaitList_frame s a
  refine (waitsKept_leave wait a c (by rw [attached]; rfl)).easing wait (fun x => ?_) engine
    fun q => ?_
  · rw [setAgent_agent]
    split
    · next self =>
      obtain ⟨w, port⟩ := Port.isWaiting_iff.mp waits
      rw [self, port, attached]
      exact .ended w
    · rw [show (s.leaveWaitList a).agent x = s.agent x from congrArg (·.get x) agents]
      exact .same _
  · rw [leaveWaitList_eq_withoutWaiter s a wait, setAgent_queue]
    exact (congrArg Queue.isPurging (Table.get_map s.queues _ q)).trans rfl

end Updates

/-! ### Leaving the one wait list -/

section OneList

variable {s : State} {a : Agent}

@[simp] theorem setLock_setLock (l : LockId) (k k' : Lock) :
    (s.setLock l k).setLock l k' = s.setLock l k' := by
  simp [State.setLock]

@[simp] theorem setQueue_setQueue (q : QueueId) (k k' : Queue) :
    (s.setQueue q k).setQueue q k' = s.setQueue q k' := by
  simp [State.setQueue]

theorem leaveWaitList_of_awaitedLock {l : LockId} (awaits : (s.agent a).awaitedLock = some l) :
    s.leaveWaitList a =
      s.setLock l { s.lock l with waiters := (s.lock l).waiters.filter (· != a) } := by
  cases port : (s.agent a).port with
  | waiting w =>
    cases want : w.want with
    | acquire x =>
      obtain rfl : x = l := by simpa [AgentCtx.awaitedLock, port, want] using awaits
      simp only [State.leaveWaitList, port, want]
    | _ => simp [AgentCtx.awaitedLock, port, want] at awaits
  | _ => simp [AgentCtx.awaitedLock, port] at awaits

theorem leaveWaitList_of_awaitedReceive {x : QueueId × Receiver}
    (awaits : s.awaitedReceive a = some x) :
    s.leaveWaitList a = s.setQueue x.1 { s.queue x.1 with
      receivers := (s.queue x.1).receivers.filter (·.agent != a) } := by
  cases port : (s.agent a).port with
  | waiting w =>
    cases want : w.want with
    | receive q label mask =>
      obtain ⟨rfl⟩ : _ = x := by simpa [State.awaitedReceive, port, want] using awaits
      simp only [State.leaveWaitList, port, want]
    | _ => simp [State.awaitedReceive, port, want] at awaits
  | _ => simp [State.awaitedReceive, port] at awaits

theorem leaveWaitList_of_awaitedSend {x : QueueId × Message}
    (awaits : (s.agent a).awaitedSend = some x) : s.leaveWaitList a = s.dropSender a := by
  obtain ⟨deadline, port⟩ := awaitedSend_eq_some awaits
  simp only [State.leaveWaitList, port]

end OneList

/-! ### The waits at one queue -/

section AtQueue

variable {s : State} {a : Agent} (q : QueueId)

theorem waitsAtQueue_of_awaitedLock {l : LockId} (awaits : (s.agent a).awaitedLock = some l) :
    (s.agent a).waitsAtQueue q = false := by
  cases port : (s.agent a).port with
  | waiting w =>
    cases want : w.want with
    | acquire => simp [AgentCtx.waitsAtQueue, port, want]
    | _ => simp [AgentCtx.awaitedLock, port, want] at awaits
  | _ => simp [AgentCtx.awaitedLock, port] at awaits

theorem waitsAtQueue_of_awaitedReceive {x : QueueId × Receiver}
    (awaits : s.awaitedReceive a = some x) : (s.agent a).waitsAtQueue q = (x.1 == q) := by
  cases port : (s.agent a).port with
  | waiting w =>
    cases want : w.want with
    | receive q' label mask =>
      obtain ⟨rfl⟩ : _ = x := by simpa [State.awaitedReceive, port, want] using awaits
      simp [AgentCtx.waitsAtQueue, port, want]
    | _ => simp [State.awaitedReceive, port, want] at awaits
  | _ => simp [State.awaitedReceive, port] at awaits

theorem waits_of_waitsAtQueue (here : (s.agent a).waitsAtQueue q = true) : s.waits a = true := by
  cases port : (s.agent a).port with
  | waiting w => exact waits_of_port port
  | _ => simp [AgentCtx.waitsAtQueue, port] at here

theorem waitersEnded_port (c : ResCode) (a : Agent) :
    ((s.waitersEnded q c).agent a).port =
      if (s.agent a).waitsAtQueue q then .attached else (s.agent a).port := by
  rw [State.waitersEnded, State.agent, Table.get_map, ← State.agent]
  split <;> rfl

theorem waitersEnded_eases (c : ResCode) (a : Agent) :
    (s.agent a).port.Eases ((s.waitersEnded q c).agent a).port := by
  rw [waitersEnded_port]
  split
  · next here =>
    obtain ⟨w, port⟩ := Port.isWaiting_iff.mp (waits_of_waitsAtQueue q here)
    rw [port]
    exact .ended w
  · exact .same _

theorem waitersEnded_waits (c : ResCode) (a : Agent) :
    (s.waitersEnded q c).waits a = (!(s.agent a).waitsAtQueue q && s.waits a) := by
  rw [State.waits, waitersEnded_port]
  cases (s.agent a).waitsAtQueue q <;> rfl

end AtQueue

section Operations

variable {s : State} (wait : WaitLaw s)
include wait

/-! ### Results, notices and violations -/

theorem easing_setResult (t : Agent) (r : Result) : Easing s (s.setResult t r) :=
  easing_setAgent wait t _

theorem easing_refuse (t : Agent) (c : ResCode) : Easing s (s.refuse t c) :=
  easing_setAgent wait t _

theorem easing_done (t : Agent) (v : Word) : Easing s (s.done t v) :=
  easing_setAgent wait t _

theorem easing_setNotice (a : Agent) (n : Notice) : Easing s (s.setNotice a n) :=
  easing_setAgent wait a _

theorem easing_deliver (a : Agent) (d : Stored) : Easing s (s.deliver a d) :=
  easing_setAgent wait a _

theorem easing_supResult (c : ResCode) : Easing s (s.supResult c) :=
  .of_fields wait

theorem easing_recordViolation (t : Agent) (e : ViolationEvent) :
    Easing s (s.recordViolation t e) := by
  cases full : s.sup.capture with
  | none =>
    rw [recordViolation_empty s t e full]
    exact Easing.andThen (.of_fields wait) fun wait => easing_setNotice wait _ _
  | some c =>
    rw [recordViolation_full s t e full]
    exact .of_fields wait

theorem easing_deny (t : Agent) (c : AgentCmd) (object : Nat) : Easing s (s.deny t c object) :=
  (easing_refuse wait t _).andThen fun wait => easing_recordViolation wait t _

theorem easing_reckonStoreEmpty (before : State) : Easing s (reckonStoreEmpty before s) :=
  .ite (fun _ => easing_setNotice wait _ _) fun _ => .refl wait

/-! ### The Lock Table -/

/-- The head waiter's wait ends with the lock in its hands, or the lock becomes FREE (R15, R17, R20). -/
theorem easing_passLock (l : LockId) (lost : Bool) : Easing s (passLock s l lost) := by
  cases queue : (s.lock l).waiters with
  | nil =>
    rw [passLock_nobody s l lost queue]
    exact easing_setLock wait l _ rfl (by simp)
  | cons w rest =>
    have ⟨waiters, waitersOnce, _⟩ := wait
    have mem : w ∈ (s.lock l).waiters := by rw [queue]; exact List.mem_cons_self
    have fresh : w ∉ rest := (List.nodup_cons.mp (queue ▸ waitersOnce l)).1
    have leaves := leaveWaitList_of_awaitedLock ((waiters w l).mp mem)
    have eq : passLock s l lost = (((s.leaveWaitList w).endWait w (.granted lost)).setLock l
        { (s.lock l).grantTo w with waiters := rest }) := by
      rw [passLock_head s l lost queue, leaves]
      exact congrArg (State.endWait · w (.granted lost)) (setLock_setLock l _ _).symm
    rw [eq]
    refine (easing_end wait (waits_of_mem_waiters wait mem) _).andThen fun wait =>
      easing_setLock wait l _ ?_ ?_
    · rw [leaves, queue]
      simp [filter_ne_self fresh]
    · rintro _ ⟨⟩
      exact .inr (by simp [AgentCtx.awaitedLock])

theorem easing_acquireNested (t : Agent) {l : LockId} {h : Hold}
    (held : (s.lock l).hold = some h) : Easing s (acquireNested s t l h) :=
  .ite (fun _ => easing_refuse wait t _) fun _ =>
    (easing_rehold wait _ held (by simp)).andThen fun wait => easing_done wait t _

theorem easing_acquireFree {t : Agent} (l : LockId) (idle : s.waits t = false) :
    Easing s (acquireFree s t l) := by
  obtain ⟨idle, -⟩ := awaits_nothing idle
  have granted : Easing s (s.setLock l ((s.lock l).grantTo t)) :=
    easing_setLock wait l _ rfl (by rintro _ ⟨⟩; exact .inr idle)
  exact granted.andThen fun wait => easing_setResult wait t _

theorem easing_release (t : Agent) (l : LockId) : Easing s (release s t l) := by
  unfold release
  split
  · exact easing_refuse wait t _
  · next h held =>
    exact .ite (fun _ => easing_refuse wait t _) fun _ => .ite
      (fun _ => (easing_rehold wait _ held (by simp)).andThen fun wait => easing_done wait t _)
      fun _ => (easing_passLock wait l false).andThen fun wait => easing_done wait t _

theorem easing_renew (t : Agent) (l : LockId) : Easing s (renew s t l) := by
  unfold renew
  split
  · exact easing_refuse wait t _
  · next h held =>
    exact .ite (fun _ => easing_refuse wait t _) fun _ =>
      (easing_rehold wait _ held (by simp)).andThen fun wait => easing_done wait t _

theorem easing_lockConfig (l : LockId) : Easing s (lockConfig s l) :=
  .ite (fun _ => easing_supResult wait _) fun _ =>
    Easing.andThen (easing_setLock wait l { s.lock l with
      leaseLength := s.supOperand 1, useMask := s.supOperand 2, broken := false } rfl
      fun h held => .inl ⟨h, held, rfl⟩) fun wait => easing_supResult wait _

theorem easing_tickLock (l : LockId) : Easing s (tickLock s l) := by
  unfold tickLock
  split
  · exact .refl wait
  · next h held =>
    split
    · exact .refl wait
    · exact .ite (fun _ => easing_rehold wait _ held (by simp)) fun _ =>
        (easing_passLock wait l true).andThen fun wait => easing_setNotice wait _ _

theorem easing_lockTableTick : Easing s (lockTableTick s) :=
  .ite (fun _ => .refl wait) fun _ =>
    Easing.andThen (.of_fields wait) fun wait =>
      .foldl wait (fun _ l wait => easing_tickLock wait l) _

/-! ### The Agent Ports -/

theorem easing_cancel (t : Agent) : Easing s (cancel s t) := by
  unfold cancel
  split
  · next w port => exact easing_end wait (waits_of_port port) _
  · exact easing_refuse wait t _

theorem easing_tickPort (a : Agent) : Easing s (tickPort s a) := by
  unfold tickPort
  split
  · next w port =>
    split
    · exact .refl wait
    · refine .ite (fun _ => easing_setContext wait a _ ?_ ?_) fun _ =>
        easing_end wait (waits_of_port port) _
      · rw [port]
        exact .counted rfl
      · exact (waits_of_port port).symm
  · exact .refl wait

theorem easing_agentPortsTick : Easing s (agentPortsTick s) :=
  .ite (fun _ => .refl wait) fun _ =>
    Easing.andThen (.of_fields wait) fun wait =>
      .foldl wait (fun _ a wait => easing_tickPort wait a) _

/-! ### Messages -/

/-- The receiver that takes the message ends its wait (R57). -/
theorem easing_handOff {q : QueueId} (m : Message) {r : Receiver}
    (listed : r ∈ (s.queue q).receivers) : Easing s (s.handOff q m r) := by
  have ⟨_, _, _, receivers, _⟩ := wait
  have leaves := leaveWaitList_of_awaitedReceive (receivers q r listed)
  have eq : s.handOff q m r = ((s.leaveWaitList r.agent).setAgent r.agent
      { s.agent r.agent with
        port := .attached, res := .delivered m
        delivery := .ofStored { msg := m, seq := (s.queue q).nextSeq }
        notices := (s.agent r.agent).notices ||| Notice.waitDone.bit }).setQueue q
      { s.queue q with
        nextSeq := (s.queue q).nextSeq + 1
        receivers := (s.queue q).receivers.filter (·.agent != r.agent) } := by
    rw [handOff_eq, leaves]
    exact congrArg (State.setAgent · r.agent _) (setQueue_setQueue q _ _).symm
  rw [eq]
  refine (easing_end wait (waits_of_mem_receivers wait listed) _).andThen fun wait =>
    easing_setQueue wait q _ ?_ ?_
  · rw [leaves]
    simp
  · rw [leaves]
    simp [Queue.isPurging]

theorem easing_notifyWatchers (q : QueueId) : Easing s (s.notifyWatchers q) :=
  .of_fields wait fun a => (congrArg AgentCtx.port (Table.get_map s.agents _ a)).trans rfl

theorem easing_admitMessage (q : QueueId) (m : Message) : Easing s (s.admitMessage q m) := by
  have admitted : Easing s (State.setQueue { s with freeCount := s.freeCount - 1 } q
      { s.queue q with
        nextSeq := (s.queue q).nextSeq + 1
        messages := placeMessage ((s.queue q).stamp m) (s.queue q).messages }) :=
    Easing.andThen (u := { s with freeCount := s.freeCount - 1 }) (.of_fields wait) fun wait =>
      easing_setQueue wait q _
  exact .ite (fun _ => admitted.andThen fun wait => easing_notifyWatchers wait q) fun _ => admitted

theorem easing_completeSender {a : Agent} {x : QueueId × Message}
    (awaits : (s.agent a).awaitedSend = some x) (seq : Word) :
    Easing s (s.completeSender a seq) := by
  have waits : s.waits a = true := waits_of_awaitedSend (by simp [awaits])
  rw [State.completeSender, ← leaveWaitList_of_awaitedSend awaits]
  exact easing_end wait waits _

/-- One entry of the admission pass: the sender's wait ends, and a receiver's with it, or nothing happens (R65). -/
theorem easing_serveSender (a : Agent) : Easing s (serveSender s a) := by
  unfold serveSender
  split
  · next w port =>
    split
    · next q m want =>
      have awaits : (s.agent a).awaitedSend = some (q, m) := by
        simp [AgentCtx.awaitedSend, port, want]
      split
      · next r first =>
        have listed : r ∈ (s.queue q).receivers := List.mem_of_find?_eq_some first
        have ⟨_, _, _, receivers, _⟩ := wait
        have other : a ≠ r.agent := fun self => by
          have awaits' := receivers q r listed
          simp [State.awaitedReceive, ← self, port, want] at awaits'
        refine (easing_handOff wait m listed).andThen fun wait =>
          easing_completeSender wait (x := (q, m)) ?_ _
        rwa [handOff_eq, setAgent_agent_ne _ _ _ other]
      · refine .ite (fun _ => (easing_admitMessage wait q m).andThen fun wait =>
          easing_completeSender wait (x := (q, m)) ?_ _) fun _ => .refl wait
        rwa [admit_agent]
    · exact .refl wait
  · exact .refl wait

theorem easing_admissionPass : Easing s (admissionPass s) :=
  .foldl wait (fun _ a wait => easing_serveSender wait a) _

theorem easing_takeMessage (t : Agent) (q : QueueId) (p : Stored → Bool) (d : Stored) :
    Easing s (takeMessage s t q p d) := by
  have taken : Easing s (State.setQueue { s with freeCount := s.freeCount + 1 } q
      { s.queue q with messages := (s.queue q).messages.eraseP p }) :=
    Easing.andThen (u := { s with freeCount := s.freeCount + 1 }) (.of_fields wait) fun wait =>
      easing_setQueue wait q _
  exact (taken.andThen fun wait => easing_deliver wait t d).andThen fun wait =>
    easing_setResult wait t _

theorem easing_takeFromSender (t : Agent) (q : QueueId) {a : Agent} {m : Message}
    (awaits : (s.agent a).awaitedSend = some (q, m)) : Easing s (takeFromSender s t q a m) := by
  have numbered : Easing s (s.setQueue q { s.queue q with nextSeq := (s.queue q).nextSeq + 1 }) :=
    easing_setQueue wait q _
  exact ((numbered.andThen fun wait => easing_completeSender wait awaits _).andThen fun wait =>
    easing_deliver wait t _).andThen fun wait => easing_setResult wait t _

/-! ### The Queue Table -/

/-- The waiting parties of the queue end their waits (R40). -/
theorem waitsKept_waitersEnded (q : QueueId) (c : ResCode) : WaitsKept s (s.waitersEnded q c) where
  port a := (waitersEnded_eases q c a).waitsAs
  holder _ h held := .inl ⟨h, held, rfl⟩
  waiters l := by
    refine (List.filter_eq_self.mpr fun a mem => ?_).symm
    have ⟨waiters, _⟩ := wait
    rw [waitersEnded_waits, waitsAtQueue_of_awaitedLock q ((waiters a l).mp mem)]
    exact waits_of_mem_waiters wait mem
  receivers x := by
    have ⟨_, _, _, receivers, _⟩ := wait
    have stays : ∀ r ∈ (s.queue x).receivers, (s.waitersEnded q c).waits r.agent = (x != q) :=
      fun r mem => by
        rw [waitersEnded_waits, waitsAtQueue_of_awaitedReceive q (receivers x r mem)]
        rw [waits_of_mem_receivers wait mem, Bool.and_true]
        rfl
    rw [List.filter_congr stays, State.waitersEnded, State.queue, Table.get_set]
    split
    · next here => simp [here]
    · next elsewhere => rw [bne_iff_ne.mpr elsewhere, List.filter_true]; rfl
  senders := List.filter_congr fun a mem => by
    rw [waitersEnded_waits, waits_of_mem_senderWait wait mem, Bool.and_true]

theorem easing_endWaiters (q : QueueId) (c : ResCode) : Easing s (endWaiters s q c) := by
  rw [endWaiters_eq_waitersEnded s q c wait]
  refine (waitsKept_waitersEnded wait q c).easing wait (waitersEnded_eases q c) rfl fun x => ?_
  rw [State.waitersEnded, State.queue, Table.get_set]
  split
  · next here => rw [here]; rfl
  · rfl

theorem easing_bindQueue (t : Agent) (q : QueueId) : Easing s (bindQueue s t q) := by
  refine .ite (fun _ => easing_deny wait t _ _) fun _ => ?_
  split
  · exact easing_refuse wait t _
  · exact easing_refuse wait t _
  · split
    · exact .ite (fun _ => easing_done wait t _) fun _ => easing_refuse wait t _
    · exact .ite (fun _ => (easing_setQueue wait q _).andThen fun wait => easing_done wait t _)
        fun _ => easing_refuse wait t _

theorem easing_unbindQueue (t : Agent) (q : QueueId) : Easing s (unbindQueue s t q) :=
  .ite (fun _ => (easing_setQueue wait q _).andThen fun wait => easing_done wait t _)
    fun _ => easing_deny wait t _ _

theorem easing_setWatch (t : Agent) (k : Fin 4) (x : Option QueueId) :
    Easing s (setWatch s t k x) :=
  (easing_setAgent wait t _).andThen fun wait => easing_done wait t _

theorem easing_watchQueue (t : Agent) (q : QueueId) : Easing s (watchQueue s t q) := by
  refine .ite (fun _ => easing_deny wait t _ _) fun _ => .ite (fun _ => easing_refuse wait t _)
    fun _ => ?_
  split
  · exact easing_refuse wait t _
  · exact easing_setWatch wait t _ _

theorem easing_unwatchQueue (t : Agent) (q : QueueId) : Easing s (unwatchQueue s t q) := by
  unfold unwatchQueue
  split
  · exact easing_refuse wait t _
  · exact easing_setWatch wait t _ _

/-- Closing an OPEN queue ends no purge (R42). -/
theorem easing_closeRecord {q : QueueId} (notPurging : (s.queue q).isPurging = false) :
    Easing s (closeRecord s q) :=
  easing_setQueue wait q _ rfl notPurging.symm

theorem easing_discardHead (q : QueueId) : Easing s (discardHead s q) := by
  unfold discardHead
  split
  · exact .refl wait
  · exact Easing.andThen (u := { s with freeCount := s.freeCount + 1 }) (.of_fields wait)
      fun wait => easing_setQueue wait q _

/-! ### The registers, the Time Base and the pins -/

/-- A write of the agent page but to CMD (Table 10-1). -/
theorem easing_writeAgentReg (t : Agent) {r : AgentReg} (v : Word) (plain : r ≠ .cmd) :
    Easing s (writeAgentReg s t r v) := by
  unfold writeAgentReg
  split
  · exact absurd rfl plain
  · exact easing_setAgent wait t _
  · exact easing_setAgent wait t _
  · exact easing_setAgent wait t _
  · exact easing_setAgent wait t _
  · exact easing_setAgent wait t _
  all_goals exact .refl wait

/-- A write of the supervisor page but to SCMD (Table 10-2). -/
theorem easing_writeSupReg {r : SupReg} (v : Word) (plain : r ≠ .scmd) :
    Easing s (writeSupReg s r v) := by
  unfold writeSupReg
  split
  · exact absurd rfl plain
  all_goals exact .of_fields wait

theorem easing_unknownAgentCommand (t : Agent) {code : Word}
    (unknown : AgentCmd.ofCode code = none) : Easing s (writeCmd s t code) := by
  rw [writeCmd_unknown unknown]
  exact acceptCommand_induct (easing_refuse wait t) (.refl wait)

/-- A REGISTER_WRITE of the table writes no command. -/
theorem easing_plainWrite (t : Agent) {off : Offset} (v : Word)
    (plain : plainWriteOffset off = true) : Easing s (busWrite s t off v) := by
  obtain ⟨notCmd, notScmd⟩ := ne_cmd_of_plainWriteOffset plain
  exact .ite (fun _ => .ite (fun _ => easing_writeSupReg wait v notScmd)
    fun _ => easing_recordViolation wait t _) fun _ => easing_writeAgentReg wait t v notCmd

/-- A write of the supervisor page by another tag is a violation (R147). -/
theorem easing_deniedWrite {t : Agent} {off : Offset} (v : Word)
    (page : Offset.supervisorPage off = true) (other : t ≠ s.sup.tag) :
    Easing s (busWrite s t off v) := by
  rw [busWrite, if_pos page, if_neg other]
  exact easing_recordViolation wait t _

theorem easing_timeEvent (f : TimeBase → TimeBase) : Easing s (timeEvent s f) :=
  .ite (fun _ => .refl wait) fun _ => .of_fields wait

theorem easing_releaseReset (straps : Agent) : Easing s (releaseReset s straps) :=
  .ite (fun _ => .of_fields wait) fun _ => .refl wait

end Operations

end Sys2Proof.Machine

/-! The Job List (R132, R133): what keeps one job for each RETIRING agent and each PURGING queue, with the engine at the head. -/

namespace Sys2Proof.Machine

/-- The job that an engine state belongs to (Table 8-1). -/
def EngineState.job : EngineState → Option Job
  | .idle => none
  | .retireLocks r _ => some (.retire r)
  | .retireQueues r _ => some (.retire r)
  | .purge q => some (.purge q)

theorem Engine.agrees_iff {e : Engine} : e.agrees = true ↔ e.state.job = e.jobs.head? := by
  obtain ⟨jobs, state⟩ := e
  cases jobs with
  | nil => cases state <;> simp [Engine.agrees, EngineState.job]
  | cons j rest => cases j <;> cases state <;> simp [Engine.agrees, EngineState.job]

@[simp] theorem firstState_job (j : Job) : j.firstState.job = some j := by
  cases j <;> rfl

@[simp] theorem engineStart_job (jobs : List Job) : (engineStart jobs).job = jobs.head? := by
  cases jobs with
  | nil => rfl
  | cons j rest => exact firstState_job j

section Jobs

variable {s s' : State} (jobs : JobLaw s)
include jobs

/-- No job comes or goes. -/
theorem JobLaw.of_same (engine : s'.engine = s.engine)
    (retiring : ∀ a, (s'.agent a).port = .retiring ↔ (s.agent a).port = .retiring)
    (purging : ∀ q, (s'.queue q).isPurging = (s.queue q).isPurging) : JobLaw s' := by
  obtain ⟨once, ofAgent, ofQueue, agrees⟩ := jobs
  refine ⟨engine ▸ once, fun a => ?_, fun q => ?_, engine ▸ agrees⟩
  · rw [engine, retiring, ofAgent]
  · rw [engine, purging, ofQueue]

theorem Easing.jobLaw (easing : Easing s s') : JobLaw s' :=
  jobs.of_same easing.engine (fun a => (easing.port a).retiring_iff) easing.purging

/-- The engine moves on within the job at the head. -/
theorem JobLaw.of_moved {e : EngineState} (engine : s'.engine = { s.engine with state := e })
    (job : e.job = s.engine.state.job)
    (retiring : ∀ a, (s'.agent a).port = .retiring ↔ (s.agent a).port = .retiring)
    (purging : ∀ q, (s'.queue q).isPurging = (s.queue q).isPurging) : JobLaw s' := by
  have same : s'.engine.jobs = s.engine.jobs := by rw [engine]
  obtain ⟨once, ofAgent, ofQueue, agrees⟩ := jobs
  refine ⟨same ▸ once, fun a => ?_, fun q => ?_, ?_⟩
  · rw [same, retiring, ofAgent]
  · rw [same, purging, ofQueue]
  · rw [engine, Engine.agrees_iff, job]
    exact Engine.agrees_iff.mp agrees

/-- A job joins the tail with the agent's or the queue's change of state (R132). -/
theorem JobLaw.of_added {j : Job} (fresh : j ∉ s.engine.jobs)
    (engine : s'.engine = (s.addJob j).engine)
    (retiring : ∀ a, (s'.agent a).port = .retiring ↔
      (s.agent a).port = .retiring ∨ Job.retire a = j)
    (purging : ∀ q, (s'.queue q).isPurging = true ↔
      (s.queue q).isPurging = true ∨ Job.purge q = j) : JobLaw s' := by
  have list : s'.engine.jobs = s.engine.jobs ++ [j] := by rw [engine, State.addJob]
  obtain ⟨once, ofAgent, ofQueue, agrees⟩ := jobs
  refine ⟨?_, fun a => ?_, fun q => ?_, ?_⟩
  · rw [list]
    exact List.nodup_append.mpr ⟨once, List.nodup_singleton j, fun x mem y only same =>
      fresh (List.mem_singleton.mp only ▸ same ▸ mem)⟩
  · rw [list, retiring, List.mem_append, ofAgent, List.mem_singleton]
  · rw [list, purging, List.mem_append, ofQueue, List.mem_singleton]
  · rw [Engine.agrees_iff] at agrees
    rw [engine, Engine.agrees_iff]
    cases list : s.engine.jobs with
    | nil => simp [State.addJob, list]
    | cons k rest => simp [State.addJob, list, agrees]

/-- The job at the head leaves with the agent's or the queue's change of state (R133). -/
theorem JobLaw.of_ended {j : Job} {rest : List Job} (head : s.engine.jobs = j :: rest)
    (engine : s'.engine = s.endJob.engine)
    (retiring : ∀ a, (s'.agent a).port = .retiring ↔
      (s.agent a).port = .retiring ∧ Job.retire a ≠ j)
    (purging : ∀ q, (s'.queue q).isPurging = true ↔
      (s.queue q).isPurging = true ∧ Job.purge q ≠ j) : JobLaw s' := by
  have list : s'.engine = { jobs := rest, state := engineStart rest } := by
    rw [engine]
    change ({ jobs := s.engine.jobs.tail, state := _ } : Engine) = _
    rw [head, List.tail_cons]
  obtain ⟨once, ofAgent, ofQueue, -⟩ := jobs
  rw [head] at once ofAgent ofQueue
  obtain ⟨gone, once⟩ := List.nodup_cons.mp once
  have rest_iff : ∀ x, x ∈ rest ↔ x ∈ j :: rest ∧ x ≠ j := fun x =>
    ⟨fun mem => ⟨List.mem_cons_of_mem j mem, ne_of_mem_of_not_mem mem gone⟩,
      fun ⟨mem, other⟩ => (List.mem_cons.mp mem).resolve_left other⟩
  refine ⟨list ▸ once, fun a => ?_, fun q => ?_, ?_⟩
  · rw [list, retiring, ← ofAgent]
    exact rest_iff _
  · rw [list, purging, ← ofQueue]
    exact rest_iff _
  · rw [list, Engine.agrees_iff, engineStart_job]

end Jobs

end Sys2Proof.Machine

/-! Every command by its own line of Table 6-2: which agent's state it changes and how, with the wait lists and the Job List that go with the states. The invariant of both follows. -/

namespace Sys2Proof.Machine

/-- A change of agent `a`'s state by command `c`, but for CLEAR and RESET (Table 6-2). -/
inductive PortMove (c : Instr) (a : Agent) : Port → Port → Prop
  | eases {p p' : Port} (eases : p.Eases p') : PortMove c a p p'
  | attaches (own : c = .attach a) : PortMove c a .detached .attached
  | detaches (own : c = .detach a) : PortMove c a .attached .detached
  | starts {w : Wait} (own : c = .acquire a ∨ c = .send a ∨ c = .receive a) :
      PortMove c a .attached (.waiting w)
  | retires {p : Port} (retire : c = .retire) (active : p = .attached ∨ p.isWaiting = true) :
      PortMove c a p .retiring
  | retired (sweep : c = .queueSweepStep) : PortMove c a .retiring .detached

theorem PortMove.andEases {c : Instr} {a : Agent} {p p' p'' : Port} (move : PortMove c a p p')
    (eases : p'.Eases p'') : PortMove c a p p'' := by
  cases move with
  | eases first => exact .eases (first.trans eases)
  | attaches own => cases eases; exact .attaches own
  | detaches own => cases eases; exact .detaches own
  | starts own =>
    cases eases with
    | same => exact .starts own
    | counted => exact .starts own
    | ended => exact .eases (.same _)
  | retires retire active => cases eases; exact .retires retire active
  | retired sweep => cases eases; exact .retired sweep

/-- What command `c` does to the agents' states, the wait lists and the Job List. -/
structure PartyEvent (c : Instr) (s s' : State) : Prop where
  wait : WaitLaw s'
  jobs : JobLaw s'
  port : ∀ a, PortMove c a (s.agent a).port (s'.agent a).port

theorem Easing.party {s s' : State} {c : Instr} (easing : Easing s s') (jobs : JobLaw s) :
    PartyEvent c s s' :=
  ⟨easing.wait, easing.jobLaw jobs, fun a => .eases (easing.port a)⟩

theorem PartyEvent.laws {s : State} {c : Instr} {s' : State} (event : PartyEvent c s s') :
    WaitLaw s' ∧ JobLaw s' :=
  ⟨event.wait, event.jobs⟩

theorem PartyEvent.andThen {s u s' : State} {c : Instr} (first : PartyEvent c s u)
    (next : WaitLaw u → Easing u s') : PartyEvent c s s' :=
  ⟨(next first.wait).wait, (next first.wait).jobLaw first.jobs,
    fun a => (first.port a).andEases ((next first.wait).port a)⟩

theorem PartyEvent.ite {c : Instr} {s u v : State} {p : Prop} [Decidable p]
    (taken : p → PartyEvent c s u) (skipped : ¬ p → PartyEvent c s v) :
    PartyEvent c s (if p then u else v) := by
  split
  · next holds => exact taken holds
  · next fails => exact skipped fails

theorem easing_dropBindings {s : State} (wait : WaitLaw s) (t : Agent) : Easing s (s.dropBindings t) := by
  have queue : ∀ q, (s.dropBindings t).queue q = if (s.queue q).bound = some t then
      { s.queue q with bound := none } else s.queue q := fun q => Table.get_map s.queues _ q
  refine .of_fields wait (fun _ => rfl) rfl (fun q => ?_) (fun q => ?_)
  · rw [queue]
    split <;> rfl
  · rw [queue]
    split <;> rfl

/-- The search of the blocked senders finds an agent with a pending SEND to the queue (R77). -/
theorem awaitedSend_of_firstSender {s : State} {q : QueueId} {label mask : Word} {a : Agent}
    {m : Message} (first : s.firstSender q label mask = some (a, m)) :
    (s.agent a).awaitedSend = some (q, m) := by
  obtain ⟨x, -, found⟩ := List.exists_of_findSome?_eq_some first
  split at found
  · next m' blocked =>
    split at found
    · cases found
      exact blockedMessage_eq_some_iff.mp blocked
    · cases found
  · cases found

/-- QUEUE_OPEN needs that a CLOSED queue has no waiters, or the list that it empties would lose them (R33, R39). -/
theorem easing_queueOpen {s : State} (wait : WaitLaw s) (lawful : QueuesLawful s) (q : QueueId) : Easing s (queueOpen s q) := by
  refine .ite (fun _ => easing_supResult wait _) fun closed =>
    .ite (fun _ => easing_supResult wait _) fun _ => .ite (fun _ => easing_supResult wait _)
      fun _ => ?_
  have closed : (s.queue q).state = .closed := not_not.mp closed
  obtain ⟨-, -, nobody⟩ := (Queue.lawful_iff_of_closed closed).mp (lawful q)
  exact ((easing_setQueue wait q _ nobody.symm (by simp [Queue.isPurging, openedQueue, closed])).andThen
    fun wait => easing_supResult wait _).andThen fun wait => easing_reckonStoreEmpty wait s

/-- The queue of a job that joins is OPEN before and PURGING behind (R41, R43). -/
theorem Easing.startPurge {s u : State} {c : Instr} (easing : Easing s u) (jobs : JobLaw s) {q : QueueId}
    (notPurging : (u.queue q).isPurging = false) (lim : Limits) (closeAfter : Bool) :
    PartyEvent c s (startPurge u q lim closeAfter) := by
  have jobs := easing.jobLaw jobs
  refine ⟨waitLaw_setQueue easing.wait q _, jobs.of_added (j := .purge q) ?_ rfl (fun a => ?_)
    (fun x => ?_), fun a => .eases (easing.port a)⟩
  · obtain ⟨-, -, ofQueue, -⟩ := jobs
    rw [ofQueue, notPurging]
    exact Bool.false_ne_true
  · exact ⟨.inl, fun h => h.resolve_right (by simp)⟩
  · change ((u.setQueue q _).queue x).isPurging = true ↔ _
    rw [setQueue_queue]
    split
    · next self => simp [Queue.isPurging, self]
    · next other => simp [other]

theorem endWaiters_notPurging {s : State} {q : QueueId} {lim : Limits} (c : ResCode)
    (opened : (s.queue q).state = .opened lim) :
    ((endWaiters s q c).queue q).isPurging = false := by
  rw [endWaiters_queue_self]
  simp [Queue.isPurging, opened]

/-- The engine moves its cursor. -/
theorem Easing.setEngine {s u : State} {c : Instr} (easing : Easing s u) (jobs : JobLaw s) {e : EngineState}
    (job : e.job = s.engine.state.job) : PartyEvent c s (u.setEngine e) := by
  have moved : (u.setEngine e).engine = { u.engine with state := e } := rfl
  exact ⟨easing.wait, jobs.of_moved (by rw [moved, easing.engine]) job
    (fun a => (easing.port a).retiring_iff) easing.purging, fun a => .eases (easing.port a)⟩

/-- The job in hand is the head of the list. -/
theorem JobLaw.head {s : State} (jobs : JobLaw s) {j : Job} (state : s.engine.state.job = some j) :
    ∃ rest, s.engine.jobs = j :: rest := by
  obtain ⟨-, -, -, agrees⟩ := jobs
  rw [Engine.agrees_iff, state] at agrees
  exact List.head?_eq_some_iff.mp agrees.symm

theorem endJob_port (s : State) (a : Agent) : (s.endJob.agent a).port = (s.agent a).port := by
  rw [State.endJob, setNotice_eq, setAgent_agent]
  split
  · next self => rw [self]; rfl
  · rfl

theorem endJob_waitLaw {s : State} (wait : WaitLaw s) : WaitLaw s.endJob :=
  (Easing.of_fields (s := { s with engine := s.endJob.engine }) wait (endJob_port s)).wait

theorem endJob_engine_congr {s s' : State} (engine : s'.engine = s.engine) :
    s'.endJob.engine = s.endJob.engine := by
  change ({ jobs := s'.engine.jobs.tail, state := engineStart s'.engine.jobs.tail } : Engine) = _
  rw [engine]
  rfl

/-- The end of a retirement: the RETIRING agent is DETACHED and its job leaves (R140). -/
theorem Easing.endRetirement {s u : State} (easing : Easing s u) (jobs : JobLaw s) {r : Agent}
    {c : QueueId} (state : s.engine.state = .retireQueues r c) :
    PartyEvent .queueSweepStep s (endRetirement u r) := by
  have jobs' := easing.jobLaw jobs
  obtain ⟨rest, head⟩ := jobs'.head (j := .retire r) (by rw [easing.engine, state]; rfl)
  have retiring : (u.agent r).port = .retiring := by
    obtain ⟨-, ofAgent, -⟩ := jobs'
    rw [← ofAgent, head]
    exact List.mem_cons_self
  have port : ∀ a, ((Machine.endRetirement u r).agent a).port =
      if a = r then .detached else (u.agent a).port := fun a => by
    rw [Machine.endRetirement, endJob_port, setAgent_agent]
    split <;> rfl
  refine ⟨endJob_waitLaw ((waitsKept_setAgent_idle easing.wait ?_ rfl).waitLaw easing.wait),
    jobs'.of_ended head (endJob_engine_congr rfl) (fun a => ?_) (fun q => ?_), fun a => ?_⟩
  · rw [State.waits, retiring]
    rfl
  · rw [port]
    by_cases self : a = r <;> simp [self]
  · simp [Machine.endRetirement, State.endJob, setNotice_eq, State.queue]
  · rw [port]
    split
    · next self =>
      rw [self, (easing.port r).retiring_iff.mp retiring]
      exact .retired rfl
    · exact .eases (easing.port a)

/-- The end of a purge leaves the queue CLOSED or OPEN, with its waiters (R143). -/
theorem endPurge_eq (s : State) (q : QueueId) (lim : Limits) (closeAfter : Bool) :
    ∃ k, endPurge s q lim closeAfter = s.setQueue q k ∧
      k.receivers = (s.queue q).receivers ∧ k.isPurging = false := by
  unfold endPurge
  split
  · exact ⟨_, rfl, rfl, rfl⟩
  · exact ⟨_, rfl, rfl, rfl⟩

section Commands

variable {s : State} (wait : WaitLaw s) (jobs : JobLaw s)
include wait jobs

/-- One agent that does not wait goes to another state in which it does not, and is RETIRING in neither. -/
theorem party_setAgent {c : Instr} {t : Agent} {x : AgentCtx} (before : s.waits t = false)
    (after : x.port.isWaiting = false) (notRetiring : (s.agent t).port ≠ .retiring)
    (notRetiring' : x.port ≠ .retiring) (move : PortMove c t (s.agent t).port x.port) :
    PartyEvent c s (s.setAgent t x) := by
  refine ⟨(waitsKept_setAgent_idle wait before after).waitLaw wait,
    jobs.of_same rfl (fun a => ?_) fun _ => rfl, fun a => ?_⟩
  · rw [setAgent_agent]
    split
    · next self => simp [self, notRetiring, notRetiring']
    · rfl
  · rw [setAgent_agent]
    split
    · next self => exact self ▸ move
    · exact .eases (.same _)

/-! ### The Agent Ports -/

theorem party_attach (t : Agent) : PartyEvent (.attach t) s (attach s t) := by
  unfold attach
  split
  · next port =>
    refine .ite (fun _ => ?_) fun _ => (easing_deny wait t _ _).party jobs
    exact party_setAgent wait jobs (by rw [State.waits, port]; rfl) rfl (by simp [port]) (by simp)
      (by rw [port]; exact .attaches rfl)
  · exact (easing_done wait t _).party jobs

theorem party_detach {t : Agent} (attached : (s.agent t).port = .attached) :
    PartyEvent (.detach t) s (detach s t) := by
  refine .ite (fun _ => (easing_refuse wait t _).party jobs) fun _ => ?_
  have dropped := easing_dropBindings wait t
  have attached : ((s.dropBindings t).agent t).port = .attached := attached
  have left : PartyEvent (.detach t) (s.dropBindings t)
      ((s.dropBindings t).setAgent t (s.agent t).detach) :=
    party_setAgent dropped.wait (dropped.jobLaw jobs) (by rw [State.waits, attached]; rfl) rfl
      (by simp [attached]) (by simp [AgentCtx.detach]) (by rw [attached]; exact .detaches rfl)
  exact PartyEvent.andThen ⟨left.wait, left.jobs, left.port⟩ fun wait => easing_done wait t _

/-! ### The commands that can start a wait -/

/-- An ATTACHED agent's own command makes it wait. -/
theorem party_of_starts {c : Instr} {s' : State} {t : Agent} (starts : WaitStarts s s' t)
    (attached : (s.agent t).port = .attached) (waits : s'.waits t = true)
    (own : c = .acquire t ∨ c = .send t ∨ c = .receive t) (engine : s'.engine = s.engine)
    (purging : ∀ q, (s'.queue q).isPurging = (s.queue q).isPurging) : PartyEvent c s s' := by
  obtain ⟨w, port⟩ := Port.isWaiting_iff.mp waits
  refine ⟨starts.waitLaw wait, jobs.of_same engine (fun a => ?_) purging, fun a => ?_⟩
  · by_cases self : a = t
    · simp [self, port, attached]
    · rw [starts.others a self]
  · by_cases self : a = t
    · rw [self, port, attached]
      exact .starts (self ▸ own)
    · rw [starts.others a self]
      exact .eases (.same _)

section Attached

variable {t : Agent} (attached : (s.agent t).port = .attached)
include attached

theorem party_acquireWait {l : LockId} {h : Hold} (held : (s.lock l).hold = some h)
    (other : h.holder ≠ t) : PartyEvent (.acquire t) s (acquireWait s t l h) := by
  refine .ite (fun _ => (easing_refuse wait t _).party jobs) fun _ =>
    .ite (fun _ => (easing_refuse wait t _).party jobs) fun _ => ?_
  have wants : ∀ x, (((s.setLock l { s.lock l with waiters := (s.lock l).waiters ++ [t] }).startWait
      t (.acquire l) (s.operand t 2)).agent t).awaitedLock = some x ↔ x = l := fun x => by
    simp [startWait_eq, AgentCtx.awaitedLock, eq_comm]
  refine party_of_starts wait jobs (t := t) ⟨by rw [State.waits, attached]; rfl,
    fun a other => by rw [startWait_eq, setAgent_agent_ne _ _ _ other, setLock_agent], fun x => ?_,
    fun x => ?_, fun x awaits h' held' => ?_, fun q => ?_, ?_⟩ attached ?_ (.inl rfl) rfl
    fun _ => rfl
  · simp only [wants]
    rw [startWait_eq, setAgent_lock, setLock_lock]
    split
    · next self => rw [self]
    · rfl
  · rw [startWait_eq, setAgent_lock, setLock_lock]
    split
    · next self => rw [self]
    · rfl
  · rw [(wants x).mp awaits, held] at held'
    exact Option.some.inj held' ▸ other
  · simp [startWait_eq, State.awaitedReceive, receiverEntry]
  · simp [startWait_eq, AgentCtx.awaitedSend]
  · simp [startWait_eq, State.waits, Port.isWaiting]

theorem party_sendBlocked (q : QueueId) (mode : Mode) (m : Message) :
    PartyEvent (.send t) s (sendBlocked s t q mode m) := by
  unfold sendBlocked
  split
  · exact (easing_refuse wait t _).party jobs
  · refine .ite (fun _ => (easing_refuse wait t _).party jobs) fun _ => ?_
    refine party_of_starts wait jobs (t := t) ⟨by rw [State.waits, attached]; rfl,
      fun a other => ?_, fun x => ?_, fun x => rfl, fun x awaits => ?_, fun x => ?_, ?_⟩ attached ?_
      (.inr (.inl rfl)) rfl fun _ => rfl
    · rw [startWait_eq, setAgent_agent_ne _ _ _ other]
      rfl
    · simp [startWait_eq, AgentCtx.awaitedLock, State.lock]
    · simp [startWait_eq, AgentCtx.awaitedLock] at awaits
    · simp [startWait_eq, State.awaitedReceive, receiverEntry, State.queue]
    · simp [startWait_eq, AgentCtx.awaitedSend]
    · simp [startWait_eq, State.waits, Port.isWaiting]

theorem party_receiveBlocked (q : QueueId) (mode : Mode) (label mask : Word) :
    PartyEvent (.receive t) s (receiveBlocked s t q mode label mask) := by
  unfold receiveBlocked
  split
  · exact (easing_refuse wait t _).party jobs
  · refine .ite (fun _ => (easing_refuse wait t _).party jobs) fun _ => ?_
    refine party_of_starts wait jobs (t := t) ⟨by rw [State.waits, attached]; rfl,
      fun a other => ?_, fun x => ?_, fun x => rfl, fun x awaits => ?_, fun x => ?_, ?_⟩ attached ?_
      (.inr (.inr rfl)) rfl fun x => ?_
    · rw [startWait_eq, setAgent_agent_ne _ _ _ other, setQueue_agent]
    · simp [startWait_eq, AgentCtx.awaitedLock]
    · simp [startWait_eq, AgentCtx.awaitedLock] at awaits
    · rw [startWait_eq, setAgent_queue, setQueue_queue]
      by_cases here : x = q
      · simp [State.awaitedReceive, receiverEntry, here]
      · simp [State.awaitedReceive, receiverEntry, here, Ne.symm here]
    · simp [startWait_eq, AgentCtx.awaitedSend]
    · simp [startWait_eq, State.waits, Port.isWaiting]
    · rw [startWait_eq, setAgent_queue, setQueue_queue]
      split
      · next here => rw [here]; rfl
      · rfl

theorem party_acquire (l : LockId) : PartyEvent (.acquire t) s (acquire s t l) := by
  unfold acquire
  split
  · exact (easing_refuse wait t _).party jobs
  · refine .ite (fun _ => (easing_deny wait t _ _).party jobs) fun _ => ?_
    split
    · exact (easing_acquireFree wait l (by rw [State.waits, attached]; rfl)).party jobs
    · next h held =>
      refine .ite (fun _ => (easing_acquireNested wait t held).party jobs) fun other => ?_
      split
      · exact (easing_refuse wait t _).party jobs
      · exact party_acquireWait wait jobs attached held other

theorem party_sendOffer (q : QueueId) (mode : Mode) (m : Message) :
    PartyEvent (.send t) s (sendOffer s t q mode m) := by
  unfold sendOffer
  split
  · next r first =>
    exact ((easing_handOff wait m (List.mem_of_find?_eq_some first)).andThen fun wait =>
      easing_done wait t _).party jobs
  · exact .ite (fun _ => ((easing_admitMessage wait q m).andThen fun wait =>
      easing_done wait t _).party jobs) fun _ => party_sendBlocked wait jobs attached q mode m

theorem party_send (q : QueueId) : PartyEvent (.send t) s (send s t q) := by
  unfold send
  split
  · exact (easing_refuse wait t _).party jobs
  · refine .ite (fun _ => (easing_refuse wait t _).party jobs) fun _ =>
      .ite (fun _ => (easing_deny wait t _ _).party jobs) fun _ => ?_
    split
    · exact (easing_refuse wait t _).party jobs
    · exact (easing_refuse wait t _).party jobs
    · exact (party_sendOffer wait jobs attached q _ _).andThen fun wait =>
        easing_reckonStoreEmpty wait s

theorem party_receiveSearch (q : QueueId) (mode : Mode) (label mask : Word) :
    PartyEvent (.receive t) s (receiveSearch s t q mode label mask) := by
  unfold receiveSearch
  split
  · exact ((easing_takeMessage wait t q _ _).andThen fun wait =>
      easing_admissionPass wait).party jobs
  · split
    · next a m first => exact (easing_takeFromSender wait t q (awaitedSend_of_firstSender first)).party jobs
    · exact party_receiveBlocked wait jobs attached q mode label mask

theorem party_receive (q : QueueId) : PartyEvent (.receive t) s (receive s t q) := by
  unfold receive
  split
  · exact (easing_refuse wait t _).party jobs
  · refine .ite (fun _ => (easing_deny wait t _ _).party jobs) fun _ =>
      .ite (fun _ => (easing_deny wait t _ _).party jobs) fun _ => ?_
    split
    · exact (easing_refuse wait t _).party jobs
    · exact (easing_refuse wait t _).party jobs
    · exact (party_receiveSearch wait jobs attached q _ _ _).andThen fun wait =>
        easing_reckonStoreEmpty wait s

end Attached

/-! ### The agents' commands as the bus brings them -/

/-- A write to CMD: the refusal of a common check moves no agent. -/
theorem party_agentCommand {i : Instr} {t : Agent} {c : Option AgentCmd} {owner : State → State}
    (answer : portCheck (s.agent t).port c = none → PartyEvent i s (owner s)) :
    PartyEvent i s (acceptCommand s t c owner) := by
  rcases acceptCommand_cases s t c owner with ⟨code, refused⟩ | ⟨passed, accepted⟩
  · exact refused ▸ (easing_refuse wait t code).party jobs
  · exact accepted ▸ answer passed

theorem party_lockCommand {i : Instr} {t : Agent} {c : Option AgentCmd}
    {f : State → LockId → State}
    (each : portCheck (s.agent t).port c = none → ∀ l, PartyEvent i s (f s l)) :
    PartyEvent i s (acceptCommand s t c fun s => withLock s t (f s)) :=
  party_agentCommand wait jobs fun passed =>
    withLock_induct ((easing_refuse wait t _).party jobs) (each passed)

theorem party_queueCommand {i : Instr} {t : Agent} {c : Option AgentCmd}
    {f : State → QueueId → State}
    (each : portCheck (s.agent t).port c = none → ∀ q, PartyEvent i s (f s q)) :
    PartyEvent i s (acceptCommand s t c fun s => withQueue s t (f s)) :=
  party_agentCommand wait jobs fun passed =>
    withQueue_induct ((easing_refuse wait t _).party jobs) (each passed)

/-- Each of the twelve commands of an agent. -/
theorem party_command (t : Agent) (c : AgentCmd) :
    PartyEvent (c.command t) s (effectOf (c.command t) s) := by
  cases c with
  | attach =>
    exact party_agentCommand wait jobs (owner := (attach · t)) fun _ => party_attach wait jobs t
  | detach =>
    exact party_agentCommand wait jobs (owner := (detach · t)) fun passed =>
      party_detach wait jobs (attached_of_portCheck (c := .detach) nofun nofun passed)
  | cancel =>
    exact party_agentCommand wait jobs (owner := (cancel · t)) fun _ =>
      (easing_cancel wait t).party jobs
  | acquire =>
    exact party_lockCommand wait jobs (f := (acquire · t)) fun passed =>
      party_acquire wait jobs (attached_of_portCheck (c := .acquire) nofun nofun passed)
  | release =>
    exact party_lockCommand wait jobs (f := (release · t)) fun _ l =>
      (easing_release wait t l).party jobs
  | renew =>
    exact party_lockCommand wait jobs (f := (renew · t)) fun _ l =>
      (easing_renew wait t l).party jobs
  | send =>
    exact party_queueCommand wait jobs (f := (send · t)) fun passed =>
      party_send wait jobs (attached_of_portCheck (c := .send) nofun nofun passed)
  | receive =>
    exact party_queueCommand wait jobs (f := (receive · t)) fun passed =>
      party_receive wait jobs (attached_of_portCheck (c := .receive) nofun nofun passed)
  | bind =>
    exact party_queueCommand wait jobs (f := (bindQueue · t)) fun _ q =>
      (easing_bindQueue wait t q).party jobs
  | unbind =>
    exact party_queueCommand wait jobs (f := (unbindQueue · t)) fun _ q =>
      (easing_unbindQueue wait t q).party jobs
  | watch =>
    exact party_queueCommand wait jobs (f := (watchQueue · t)) fun _ q =>
      (easing_watchQueue wait t q).party jobs
  | unwatch =>
    exact party_queueCommand wait jobs (f := (unwatchQueue · t)) fun _ q =>
      (easing_unwatchQueue wait t q).party jobs

/-! ### The supervisor's commands -/

theorem party_queueClose (q : QueueId) : PartyEvent .queueClose s (queueClose s q) := by
  unfold queueClose
  split
  · exact (easing_supResult wait _).party jobs
  · next lim b purging =>
    have kept : Easing s (s.setQueue q { s.queue q with state := .purging lim true }) :=
      easing_setQueue wait q _ rfl (by simp [Queue.isPurging, purging])
    exact (kept.andThen fun wait => easing_supResult wait _).party jobs
  · next lim opened =>
    have ended := easing_endWaiters wait q .closed
    have notPurging := endWaiters_notPurging .closed opened
    have closed : PartyEvent .queueClose s (closeOpened (endWaiters s q .closed) q lim) :=
      .ite (fun _ => ((ended.andThen fun wait => easing_closeRecord wait notPurging).andThen
        fun wait => easing_admissionPass wait).party jobs) fun _ =>
        ended.startPurge jobs notPurging lim true
    exact (closed.andThen fun wait => easing_supResult wait _).andThen fun wait =>
      easing_reckonStoreEmpty wait s

theorem party_queuePurge (q : QueueId) : PartyEvent .queuePurge s (queuePurge s q) := by
  unfold queuePurge
  split
  · exact (easing_supResult wait _).party jobs
  · exact (easing_supResult wait _).party jobs
  · next lim opened =>
    have ended := easing_endWaiters wait q .purging
    have notPurging := endWaiters_notPurging .purging opened
    exact .ite (fun _ => (ended.andThen fun wait => easing_supResult wait _).party jobs) fun _ =>
      (ended.startPurge jobs notPurging lim false).andThen fun wait => easing_supResult wait _

/-- The agent leaves its wait list, is RETIRING, and its job joins (R135). -/
theorem party_acceptRetire {a : Agent}
    (active : (s.agent a).port = .attached ∨ (s.agent a).port.isWaiting = true) :
    PartyEvent .retire s (acceptRetire s a) := by
  obtain ⟨agents, -, -, engine, -⟩ := leaveWaitList_frame s a
  have left := (waitsKept_leave wait a (s.agent a).retire rfl).waitLaw wait
  have agent : ∀ x, (acceptRetire s a).agent x =
      if x = a then (s.agent a).retire else s.agent x := fun x => by
    rw [← show (s.leaveWaitList a).agent x = s.agent x from congrArg (·.get x) agents]
    exact setAgent_agent _ a _ x
  have notRetiring : (s.agent a).port ≠ .retiring := fun retiring => by
    simp [retiring, Port.isWaiting] at active
  refine ⟨left, jobs.of_added (j := .retire a) ?_ ?_ (fun x => ?_) (fun q => ?_), fun x => ?_⟩
  · obtain ⟨-, ofAgent, -⟩ := jobs
    rwa [ofAgent]
  · simp [acceptRetire, State.addJob, engine]
  · rw [agent]
    by_cases self : x = a
    · simp [self, AgentCtx.retire]
    · simp [self]
  · have same : ((acceptRetire s a).queue q).isPurging = (s.queue q).isPurging := by
      change ((s.leaveWaitList a).queue q).isPurging = _
      rw [leaveWaitList_eq_withoutWaiter s a wait]
      exact (congrArg Queue.isPurging (Table.get_map s.queues _ q)).trans rfl
    simp [same]
  · rw [agent]
    split
    · next self => subst self; exact .retires rfl active
    · exact .eases (.same _)

theorem party_retire (a : Agent) : PartyEvent .retire s (retire s a) := by
  unfold retire
  split
  · exact (easing_supResult wait _).party jobs
  · exact (easing_supResult wait _).party jobs
  · next attached =>
    exact (party_acceptRetire wait jobs (.inl attached)).andThen fun wait =>
      easing_supResult wait _
  · next w waiting =>
    exact (party_acceptRetire wait jobs (.inr (by rw [waiting]; rfl))).andThen fun wait =>
      easing_supResult wait _

theorem party_withSupObject {i : Instr} {n : Nat} {f : Fin n → State}
    (each : ∀ x, PartyEvent i s (f x)) : PartyEvent i s (withSupObject s n f) :=
  withSupObject_induct ((easing_supResult wait _).party jobs) each

/-- Each of the nine commands of the supervisor but CLEAR. -/
theorem party_supervisorCommand {c : SupCmd} (notClear : c ≠ .clear)
    (lawful : c = .queueOpen → QueuesLawful s) :
    PartyEvent c.command s (effectOf c.command s) := by
  cases c with
  | lockConfig =>
    exact party_withSupObject wait jobs fun l => (easing_lockConfig wait l).party jobs
  | queueOpen =>
    exact party_withSupObject wait jobs fun q =>
      (easing_queueOpen wait (lawful rfl) q).party jobs
  | queueClose => exact party_withSupObject wait jobs (party_queueClose wait jobs)
  | queuePurge => exact party_withSupObject wait jobs (party_queuePurge wait jobs)
  | retire => exact party_withSupObject wait jobs (party_retire wait jobs)
  | quiesce | resume | ackViolation => exact Easing.party (.of_fields wait) jobs
  | clear => exact absurd rfl notClear

/-! ### The engine's steps -/

theorem party_lockSweepStep : PartyEvent .lockSweepStep s (lockSweepStep s) := by
  unfold lockSweepStep
  split
  · next r c state =>
    have swept : Easing s
        (if (s.lock c).hold.any (fun h => h.holder == r) then loseLock s c else s) :=
      .ite (fun _ => easing_passLock wait c true) fun _ => .refl wait
    dsimp only
    split
    · exact swept.setEngine jobs (by rw [state]; rfl)
    · exact swept.setEngine jobs (by rw [state]; rfl)
  · exact (Easing.refl wait).party jobs

/-- A purge step: the queue whose purge it ends is PURGING no more, and its job leaves (R142, R143). -/
theorem party_purgeQueue {q : QueueId} (state : s.engine.state = .purge q) (lim : Limits)
    (closeAfter : Bool) : PartyEvent .purgeStep s (purgeQueue s q lim closeAfter) := by
  have discarded := easing_discardHead wait q
  refine .ite (fun _ => ?_) fun _ =>
    (discarded.andThen fun wait => easing_admissionPass wait).party jobs
  obtain ⟨rest, head⟩ := jobs.head (j := .purge q) (by rw [state]; rfl)
  obtain ⟨k, ended, receivers, notPurging⟩ := endPurge_eq (discardHead s q) q lim closeAfter
  have served : Easing _ (admissionPass (endPurge (discardHead s q) q lim closeAfter)) :=
    easing_admissionPass (ended ▸ waitLaw_setQueue discarded.wait q k receivers)
  refine ⟨endJob_waitLaw served.wait, jobs.of_ended head (endJob_engine_congr ?_) (fun a => ?_)
    (fun x => ?_), fun a => ?_⟩
  · rw [served.engine, ended]
    exact discarded.engine
  · rw [endJob_port, (served.port a).retiring_iff, ended, setQueue_agent,
      (discarded.port a).retiring_iff]
    simp
  · have same : ∀ u : State, (u.endJob.queue x).isPurging = (u.queue x).isPurging := fun _ => rfl
    rw [same, served.purging, ended, setQueue_queue]
    split
    · next self => simp [notPurging, self]
    · next other => simp [discarded.purging, other]
  · rw [endJob_port]
    have step := served.port a
    rw [ended, setQueue_agent] at step
    rw [ended]
    exact .eases ((discarded.port a).trans step)

theorem party_queueSweepStep : PartyEvent .queueSweepStep s (queueSweepStep s) := by
  unfold queueSweepStep
  split
  · next r c state =>
    have swept : Easing s
        (if (s.queue c).bound = some r then s.setQueue c { s.queue c with bound := none } else s) :=
      .ite (fun _ => easing_setQueue wait c _) fun _ => .refl wait
    dsimp only
    split
    · exact swept.setEngine jobs (by rw [state]; rfl)
    · exact swept.endRetirement jobs state
  · exact (Easing.refl wait).party jobs

theorem party_purgeStep : PartyEvent .purgeStep s (purgeStep s) := by
  unfold purgeStep
  split
  · next q state =>
    split
    · exact (party_purgeQueue wait jobs state _ _).andThen fun wait =>
        easing_reckonStoreEmpty wait s
    · exact (Easing.refl wait).party jobs
  · exact (Easing.refl wait).party jobs

/-! ### Every command but CLEAR and RESET -/

/-- The commands that a row of the table gives; only QUEUE_OPEN reads that a CLOSED queue has no waiters. -/
theorem party_effectOf {c : Instr} (wellFormed : c.wellFormed = true) (clear : c ≠ .clear)
    (reset : c ≠ .reset) (own : ∀ off v, c ≠ .supervisorPageWriteDenied s.sup.tag off v)
    (lawful : c = .queueOpen → QueuesLawful s) : PartyEvent c s (effectOf c s) := by
  cases c with
  | attach t => exact party_command wait jobs t .attach
  | detach t => exact party_command wait jobs t .detach
  | cancel t => exact party_command wait jobs t .cancel
  | acquire t => exact party_command wait jobs t .acquire
  | release t => exact party_command wait jobs t .release
  | renew t => exact party_command wait jobs t .renew
  | send t => exact party_command wait jobs t .send
  | receive t => exact party_command wait jobs t .receive
  | bind t => exact party_command wait jobs t .bind
  | unbind t => exact party_command wait jobs t .unbind
  | watch t => exact party_command wait jobs t .watch
  | unwatch t => exact party_command wait jobs t .unwatch
  | lockConfig => exact party_supervisorCommand wait jobs (c := .lockConfig) nofun nofun
  | queueOpen =>
    exact party_supervisorCommand wait jobs (c := .queueOpen) nofun fun _ => lawful rfl
  | queueClose => exact party_supervisorCommand wait jobs (c := .queueClose) nofun nofun
  | queuePurge => exact party_supervisorCommand wait jobs (c := .queuePurge) nofun nofun
  | retire => exact party_supervisorCommand wait jobs (c := .retire) nofun nofun
  | clear => exact absurd rfl clear
  | reset => exact absurd rfl reset
  | noteRead t | tickloRead t | tickhiRead t => exact (easing_setAgent wait t _).party jobs
  | nenWrite t v => exact (easing_setAgent wait t _).party jobs
  | supervisorPageWriteDenied t off v =>
    have other : t ≠ s.sup.tag := fun self => own off v (self ▸ rfl)
    have page : Offset.supervisorPage off = true := (Bool.and_eq_true_iff.mp wellFormed).2
    exact (easing_deniedWrite wait v page other).party jobs
  | registerWrite t off v => exact (easing_plainWrite wait t v wellFormed).party jobs
  | unknownAgentCommandCode t code =>
    exact (easing_unknownAgentCommand wait t (Option.isNone_iff_eq_none.mp wellFormed)).party jobs
  | unknownSupervisorCommandCode code =>
    rw [effectOf, writeScmd_unknown (Option.isNone_iff_eq_none.mp wellFormed)]
    exact (easing_supResult wait _).party jobs
  | resetRelease straps => exact (easing_releaseReset wait straps).party jobs
  | quiesce | resume | ackViolation | tickdivWrite | freezeAssert | freezeRelease =>
    exact Easing.party (.of_fields wait) jobs
  | tick | refclkPeriodCounted => exact (easing_timeEvent wait _).party jobs
  | leaseCountdown => exact (easing_lockTableTick wait).party jobs
  | leaseExpiry l =>
    exact Easing.party (.ite (fun _ => easing_lockTableTick wait) fun _ => .refl wait) jobs
  | deadlineCountdown => exact (easing_agentPortsTick wait).party jobs
  | deadlineExpiry a =>
    exact Easing.party (.ite (fun _ => easing_agentPortsTick wait) fun _ => .refl wait) jobs
  | lockSweepStep => exact party_lockSweepStep wait jobs
  | queueSweepStep => exact party_queueSweepStep wait jobs
  | purgeStep => exact party_purgeStep wait jobs

end Commands

/-! ### CLEAR and RESET -/

/-- Where no lock is held, no agent waits and the lists are empty, they are lawful. -/
theorem waitLaw_of_nobody {s : State} (idle : ∀ a, s.waits a = false)
    (free : ∀ l, (s.lock l).hold = none) (waiters : ∀ l, (s.lock l).waiters = [])
    (receivers : ∀ q, (s.queue q).receivers = []) (senders : s.senderWait = []) : WaitLaw s := by
  refine ⟨fun a l => ?_, fun l => ?_, fun l h held => ?_, fun q r mem => ?_, fun a x awaits => ?_,
    fun q => ?_, fun a => ?_, ?_⟩
  · simp [waiters, (awaits_nothing (idle a)).1]
  · simp [waiters]
  · simp [free] at held
  · simp [receivers] at mem
  · simp [(awaits_nothing (idle a)).2.2] at awaits
  · simp [receivers]
  · simp [senders, (awaits_nothing (idle a)).2.1]
  · simp [senders]

theorem jobLaw_of_none {s : State} (engine : s.engine = { jobs := [], state := .idle })
    (retiring : ∀ a, (s.agent a).port ≠ .retiring) (purging : ∀ q, (s.queue q).isPurging = false) :
    JobLaw s := by
  refine ⟨?_, fun a => ?_, fun q => ?_, ?_⟩
  · simp [engine]
  · simp [engine, retiring]
  · simp [engine, purging]
  · rw [engine]
    rfl

theorem clearPart_queue (s : State) (q : QueueId) : (clearPart s).queue q = .initial :=
  Table.get_all _ q

theorem clearPart_laws (s : State) : WaitLaw (clearPart s) ∧ JobLaw (clearPart s) := by
  have port : ∀ a, ((clearPart s).agent a).port = .detached := fun a => by
    rw [clearPart_agent]
    rfl
  refine ⟨waitLaw_of_nobody (fun a => ?_) (fun l => ?_) (fun l => ?_) (fun q => ?_) rfl,
    jobLaw_of_none rfl (fun a => ?_) fun q => ?_⟩
  · rw [State.waits, port]
    rfl
  · rw [clearPart_lock]
    rfl
  · rw [clearPart_lock]
    rfl
  · rw [clearPart_queue]
    rfl
  · rw [port]
    nofun
  · rw [clearPart_queue]
    rfl

/-! ### Every command -/

section EveryCommand

variable {s : State} (lawful : QueuesLawful s) (wait : WaitLaw s) (jobs : JobLaw s)
include wait jobs

theorem writeCmd_laws (t : Agent) (code : Word) :
    WaitLaw (writeCmd s t code) ∧ JobLaw (writeCmd s t code) := by
  cases known : AgentCmd.ofCode code with
  | none =>
    have easing := easing_unknownAgentCommand wait t known
    exact ⟨easing.wait, easing.jobLaw jobs⟩
  | some c =>
    rw [writeCmd_known known]
    exact (party_command wait jobs t c).laws

include lawful

theorem writeScmd_laws (code : Word) :
    WaitLaw (writeScmd s code) ∧ JobLaw (writeScmd s code) := by
  cases known : SupCmd.ofCode code with
  | none => rw [writeScmd_unknown known]; exact ⟨wait, jobs⟩
  | some c =>
    rw [writeScmd_known known]
    by_cases clear : c = .clear
    · exact clear ▸ clearPart_laws s
    · exact (party_supervisorCommand wait jobs clear fun _ => lawful).laws

theorem busWrite_laws (t : Agent) (off : Offset) (v : Word) :
    WaitLaw (busWrite s t off v) ∧ JobLaw (busWrite s t off v) := by
  have ofEasing : ∀ {s'}, Easing s s' → WaitLaw s' ∧ JobLaw s' := fun easing =>
    ⟨easing.wait, easing.jobLaw jobs⟩
  unfold busWrite
  split
  · split
    · by_cases scmd : SupReg.ofOffset off = .scmd
      · rw [scmd]
        exact writeScmd_laws lawful wait jobs v
      · exact ofEasing (easing_writeSupReg wait v scmd)
    · exact ofEasing (easing_recordViolation wait t _)
  · by_cases cmd : AgentReg.ofOffset off = .cmd
    · rw [cmd]
      exact writeCmd_laws wait jobs t v
    · exact ofEasing (easing_writeAgentReg wait t v cmd)

theorem effectOf_laws (c : Instr) : WaitLaw (effectOf c s) ∧ JobLaw (effectOf c s) := by
  cases c with
  | clear => exact clearPart_laws s
  | reset => exact ⟨reset_waitLaw, reset_jobLaw⟩
  | supervisorPageWriteDenied t off v | registerWrite t off v =>
    exact busWrite_laws lawful wait jobs t off v
  | unknownAgentCommandCode t code => exact writeCmd_laws wait jobs t code
  | unknownSupervisorCommandCode code => exact writeScmd_laws lawful wait jobs code
  | _ => exact PartyEvent.laws (party_effectOf wait jobs rfl nofun nofun nofun fun _ => lawful)

theorem exec_keeps_partyLaws {c : Instr} {s' : State} (run : exec c s = .next s') :
    WaitLaw s' ∧ JobLaw s' := by
  have effect := effectOf_laws lawful wait jobs c
  cases exec_ending run with
  | dropped => exact ⟨wait, jobs⟩
  | unanswered => exact ⟨wait, jobs⟩
  | taken => exact effect
  | answered data => exact effect

end EveryCommand

theorem step_keeps_partyLaws {s s' : State} (lawful : QueuesLawful s) (wait : WaitLaw s)
    (jobs : JobLaw s) (run : step s = .next s') : WaitLaw s' ∧ JobLaw s' := by
  cases front : s.pending with
  | nil =>
    rw [step_idle s front] at run
    exact Host.Outcome.next.inj run ▸ ⟨wait, jobs⟩
  | cons c rest =>
    rw [step_front s front] at run
    exact exec_keeps_partyLaws (s := { s with pending := rest }) lawful wait jobs run

/-- Settles O59: every command eases waits, or starts one of an ATTACHED agent, or moves one agent or queue together with its job. -/
theorem everyStepKeepsWaitListsAndJobs : Obligations.EveryStepKeepsWaitListsAndJobs :=
  ⟨fun _ _ lawful wait jobs run => (step_keeps_partyLaws lawful wait jobs run).1,
    fun _ _ lawful wait jobs run => (step_keeps_partyLaws lawful wait jobs run).2⟩

/-! ### The lines of Table 6-2 -/

theorem reckonStoreEmpty_port (before after : State) (a : Agent) :
    ((reckonStoreEmpty before after).agent a).port = (after.agent a).port := by
  unfold reckonStoreEmpty
  split
  · rw [setNotice_eq, setAgent_agent]
    split
    · next self => rw [self]
    · rfl
  · rfl

/-- QUEUE_OPEN moves no agent, whatever the queue that it opens held. -/
theorem queueOpenCommand_port (s : State) (a : Agent) :
    ((queueOpenCommand s).agent a).port = (s.agent a).port := by
  refine withSupObject_induct (P := fun s' => (s'.agent a).port = (s.agent a).port) rfl fun q => ?_
  unfold queueOpen
  split
  · rfl
  · dsimp only
    split
    · rfl
    · split
      · rfl
      · exact reckonStoreEmpty_port s _ a

theorem exec_portMove {c : Instr} {s s' : State} (run : exec c s = .next s')
    (wellFormed : c.wellFormed = true) (clear : c ≠ .clear) (reset : c ≠ .reset)
    (own : ∀ off v, c ≠ .supervisorPageWriteDenied s.sup.tag off v) (wait : WaitLaw s)
    (jobs : JobLaw s) (a : Agent) : PortMove c a (s.agent a).port (s'.agent a).port := by
  have effect : PortMove c a (s.agent a).port ((effectOf c s).agent a).port := by
    by_cases opens : c = .queueOpen
    · subst opens
      rw [effectOf, queueOpenCommand_port]
      exact .eases (.same _)
    · exact (party_effectOf wait jobs wellFormed clear reset own fun o => absurd o opens).port a
  cases exec_ending run with
  | dropped => exact .eases (.same _)
  | unanswered => exact .eases (.same _)
  | taken => exact effect
  | answered data => exact effect

/-- Settles O25: each command moves each agent along a line of its own, or leaves it but for the end of its wait. -/
theorem agentStatesFollowTable : Obligations.AgentStatesFollowTable := by
  intro c a s s' run wellFormed clear reset own wait jobs
  have move := exec_portMove run wellFormed clear reset own wait jobs a
  generalize (s.agent a).port = p at move
  generalize (s'.agent a).port = p' at move
  cases move with
  | eases eases =>
    cases eases with
    | same =>
      cases p with
      | waiting w => exact rfl
      | _ => trivial
    | counted want => exact want
    | ended => trivial
  | attaches own => exact own
  | detaches own => exact own
  | starts own => exact own
  | retires retire active =>
    cases p with
    | attached => exact retire
    | waiting => exact retire
    | detached => simp [Port.isWaiting] at active
    | retiring => trivial
  | retired sweep => exact sweep

end Sys2Proof.Machine

/-! The Agent Ports, case by case (chapter 6): the common checks of a write to CMD, what a refusal leaves, ATTACH, DETACH and CANCEL, and the statements about them. -/

namespace Sys2Proof.Machine

variable {s : State} {t : Agent}

/-! ### A write of CMD in a running part -/

theorem exec_command (c : AgentCmd) (t : Agent) (s : State) :
    exec (c.command t) s = writeCycle s (effectOf (c.command t)) := by
  cases c <;> rfl

theorem exec_command_running (running : Running s) (c : AgentCmd) :
    exec (c.command t) s = .next (effectOf (c.command t) s).answerWrite :=
  (exec_command c t s).trans (writeCycle_running s _ running)

/-! ### The common checks (R108) -/

theorem portCheck_retiring (c : Option AgentCmd) : portCheck .retiring c = some .retiring := rfl

theorem portCheck_detached {c : Option AgentCmd} (other : c ≠ some .attach) :
    portCheck .detached c = some .notAttached :=
  if_neg other

theorem portCheck_waiting (w : Wait) {c : Option AgentCmd} (other : c ≠ some .cancel) :
    portCheck (.waiting w) c = some .busy :=
  if_neg other

theorem acceptCommand_refused {c : Option AgentCmd} {code : ResCode} (owner : State → State)
    (refused : portCheck (s.agent t).port c = some code) :
    acceptCommand s t c owner = s.refuse t code := by
  simp only [acceptCommand, refused]

theorem acceptCommand_passed {c : Option AgentCmd} (owner : State → State)
    (passed : portCheck (s.agent t).port c = none) : acceptCommand s t c owner = owner s := by
  simp only [acceptCommand, passed]

/-- What a command of chapter 6 does in an agent that passes the common checks. -/
def ownerOf (t : Agent) : AgentCmd → State → State
  | .attach, s => attach s t
  | .detach, s => detach s t
  | .cancel, s => cancel s t
  | .acquire, s => withLock s t (acquire s t)
  | .release, s => withLock s t (release s t)
  | .renew, s => withLock s t (renew s t)
  | .send, s => withQueue s t (send s t)
  | .receive, s => withQueue s t (receive s t)
  | .bind, s => withQueue s t (bindQueue s t)
  | .unbind, s => withQueue s t (unbindQueue s t)
  | .watch, s => withQueue s t (watchQueue s t)
  | .unwatch, s => withQueue s t (unwatchQueue s t)

/-- Each of the twelve commands meets the common checks before its owner. -/
theorem effectOf_command (c : AgentCmd) (t : Agent) (s : State) :
    effectOf (c.command t) s = acceptCommand s t (some c) (ownerOf t c) := by
  cases c <;> rfl

theorem effectOf_command_refused {c : AgentCmd} {code : ResCode}
    (refused : portCheck (s.agent t).port (some c) = some code) :
    effectOf (c.command t) s = s.refuse t code := by
  rw [effectOf_command, acceptCommand_refused _ refused]

theorem exec_command_passed (running : Running s) {c : AgentCmd}
    (passed : portCheck (s.agent t).port (some c) = none) :
    exec (c.command t) s = .next (ownerOf t c s).answerWrite := by
  rw [exec_command_running running, effectOf_command, acceptCommand_passed _ passed]

/-- An ATTACHED agent passes the checks of every command. -/
theorem exec_command_ready (ready : Ready s t) (c : AgentCmd) :
    exec (c.command t) s = .next (ownerOf t c s).answerWrite :=
  exec_command_passed ready.1 (congrArg (portCheck · (some c)) ready.2)

theorem exec_command_refused (running : Running s) {c : AgentCmd} {code : ResCode}
    (refused : portCheck (s.agent t).port (some c) = some code) :
    exec (c.command t) s = .next (s.refuse t code).answerWrite := by
  rw [exec_command_running running, effectOf_command_refused refused]

theorem withLock_out_of_range (f : LockId → State) (above : 63 < (s.operand t 0).toNat) :
    withLock s t f = s.refuse t .badObject := by
  simp only [withLock, objectOf_of_ge (Nat.succ_le_of_lt above)]

theorem withQueue_out_of_range (f : QueueId → State) (above : 31 < (s.operand t 0).toNat) :
    withQueue s t f = s.refuse t .badObject := by
  simp only [withQueue, objectOf_of_ge (Nat.succ_le_of_lt above)]

/-- Settles O16: a check refuses every command alike, and the object is judged only of an ATTACHED agent's. -/
theorem portChecksInOrder : Obligations.PortChecksInOrder := by
  refine ⟨fun t s running => ⟨fun c => ⟨fun port => ?_, fun port other => ?_,
    fun w port other => ?_⟩, fun code unknown => ?_⟩, fun t c s ready => ⟨fun names above => ?_,
    fun names above => ?_⟩⟩
  · exact exec_command_refused running (port ▸ portCheck_retiring _)
  · exact exec_command_refused running (port ▸ portCheck_detached (by simpa using other))
  · exact exec_command_refused running (port ▸ portCheck_waiting w (by simpa using other))
  · rw [exec_unknownAgentCommandCode, writeCycle_running s _ running,
      writeCmd_unknown (Option.isNone_iff_eq_none.mp unknown), acceptCommand]
    cases (s.agent t).port <;> rfl
  · rw [exec_command_ready ready]
    simp only [List.mem_cons, List.not_mem_nil, or_false] at names
    rcases names with rfl | rfl | rfl
    all_goals rw [ownerOf, withLock_out_of_range _ above]
  · rw [exec_command_ready ready]
    simp only [List.mem_cons, List.not_mem_nil, or_false] at names
    rcases names with rfl | rfl | rfl | rfl | rfl | rfl
    all_goals rw [ownerOf, withQueue_out_of_range _ above]

/-! ### ATTACH, DETACH and CANCEL -/

theorem attach_admitted (port : (s.agent t).port = .detached)
    (admitted : admits s.sup.permit t = true) :
    attach s t =
      s.setAgent t { s.agent t with port := .attached, notices := 0, res := .doneWith 0 } := by
  simp only [attach, port, if_pos admitted]

theorem attach_outside_permit (port : (s.agent t).port = .detached)
    (outside : admits s.sup.permit t = false) : attach s t = s.deny t .attach 0 := by
  simp [attach, port, outside]

theorem attach_of_attached (port : (s.agent t).port = .attached) : attach s t = s.done t 0 := by
  simp only [attach, port]

theorem exec_attach_passed (running : Running s)
    (passed : portCheck (s.agent t).port (some .attach) = none) :
    exec (.attach t) s = .next (attach s t).answerWrite :=
  exec_command_passed (c := .attach) running passed

theorem exec_detach_ready (ready : Ready s t) :
    exec (.detach t) s = .next (detach s t).answerWrite :=
  exec_command_ready ready .detach

theorem exec_cancel_passed (running : Running s)
    (passed : portCheck (s.agent t).port (some .cancel) = none) :
    exec (.cancel t) s = .next (cancel s t).answerWrite :=
  exec_command_passed (c := .cancel) running passed

/-- Settles O18: the state of the agent decides, and PERMIT from DETACHED alone. -/
theorem attachJudgedAgainstPermit : Obligations.AttachJudgedAgainstPermit := by
  refine fun t s running => ⟨fun port admitted => ?_, fun port outside => ?_, fun port => ?_,
    fun w port => ?_, fun port => ?_⟩
  · rw [exec_attach_passed running (by rw [port]; rfl), attach_admitted port admitted]
  · rw [exec_attach_passed running (by rw [port]; rfl), attach_outside_permit port outside]
    rfl
  · rw [exec_attach_passed running (by rw [port]; rfl), attach_of_attached port, done_eq]
  · exact exec_command_refused (c := .attach) running (port ▸ portCheck_waiting w nofun)
  · exact exec_command_refused (c := .attach) running (port ▸ portCheck_retiring _)

theorem holdsAnyLock_iff :
    s.holdsAnyLock t = true ↔ ∃ l, ∃ h ∈ (s.lock l).hold, h.holder = t := by
  simp [State.holdsAnyLock, Table.any_eq_true, State.lock, Option.any_eq_true]

theorem detach_holding (holding : ∃ l, ∃ h ∈ (s.lock l).hold, h.holder = t) :
    detach s t = s.refuse t .holding :=
  if_pos (holdsAnyLock_iff.mpr holding)

theorem detach_free (free : ∀ l, ∀ h ∈ (s.lock l).hold, h.holder ≠ t) :
    detach s t = (s.dropBindings t).setAgent t { (s.agent t).detach with res := .doneWith 0 } := by
  have free : ¬ s.holdsAnyLock t = true := fun holding => by
    obtain ⟨l, h, held, own⟩ := holdsAnyLock_iff.mp holding
    exact free l h held own
  rw [detach, if_neg free, done_eq, setAgent_agent_self, setAgent_setAgent]

theorem dropBindings_queue (a : Agent) (q : QueueId) :
    (s.dropBindings a).queue q =
      { s.queue q with
        bound := if (s.queue q).bound = some a then none else (s.queue q).bound } := by
  refine (Table.get_map s.queues _ q).trans ?_
  rw [← State.queue]
  split <;> rfl

/-- Settles O19: the state of the agent is judged first, then its locks. -/
theorem detachLeavesNothingHeld : Obligations.DetachLeavesNothingHeld := by
  refine ⟨fun t s running => ⟨fun w port => ?_, fun port => ?_, fun port => ?_⟩,
    fun t s ready => ⟨fun holding => ?_, fun free => ?_⟩⟩
  · exact exec_command_refused (c := .detach) running (port ▸ portCheck_waiting w nofun)
  · exact exec_command_refused (c := .detach) running (port ▸ portCheck_retiring _)
  · exact exec_command_refused (c := .detach) running (port ▸ portCheck_detached nofun)
  · rw [exec_detach_ready ready, detach_holding holding]
  · rw [exec_detach_ready ready, detach_free free]
    refine ⟨_, rfl, setAgent_agent_self _ t _, fun a other => setAgent_agent_ne _ t _ other,
      dropBindings_queue t, rfl⟩

theorem cancel_of_waiting {w : Wait} (wait : WaitLaw s) (port : (s.agent t).port = .waiting w) :
    cancel s t = (s.withoutWaiter t).setAgent t
      { s.agent t with port := .attached, res := .plain .cancelled } := by
  simp only [cancel, port, leaveWaitList_eq_withoutWaiter s t wait]

theorem cancel_of_attached (port : (s.agent t).port = .attached) :
    cancel s t = s.refuse t .nothingPending := by
  simp only [cancel, port]

/-- Settles O20: CANCEL passes the checks of an ATTACHED and of a WAITING agent, and ends a wait alone. -/
theorem cancelEndsWaitWithoutNotice : Obligations.CancelEndsWaitWithoutNotice := by
  refine fun t s running wait => ⟨fun port => ?_, fun w port => ?_⟩
  · rw [exec_cancel_passed running (by rw [port]; rfl), cancel_of_attached port]
  · rw [exec_cancel_passed running (by rw [port]; rfl), cancel_of_waiting wait port]

end Sys2Proof.Machine

/-! What a command of one agent leaves in the contexts of the others, and what it leaves when it is refused (R109, chapter 6). -/

namespace Sys2Proof.Machine

/-! ### What one context keeps -/

/-- The registers that an agent's own cycles alone write are kept. -/
structure AgentCtx.OwnKept (c c' : AgentCtx) : Prop where
  operands : c'.operands = c.operands
  staging : c'.staging = c.staging
  enable : c'.enable = c.enable
  watch : c'.watch = c.watch
  latch : c'.latch = c.latch

/-- What the answer to another party's command can do to a context: beside the own registers the result stays, or it becomes DONE. -/
structure AgentCtx.Served (c c' : AgentCtx) : Prop extends c.OwnKept c' where
  res : c'.res = c.res ∨ c'.res.code = .done

namespace AgentCtx

variable {c d e : AgentCtx}

theorem OwnKept.refl (c : AgentCtx) : c.OwnKept c :=
  ⟨rfl, rfl, rfl, rfl, rfl⟩

theorem OwnKept.trans (first : c.OwnKept d) (second : d.OwnKept e) : c.OwnKept e :=
  ⟨second.operands.trans first.operands, second.staging.trans first.staging,
    second.enable.trans first.enable, second.watch.trans first.watch,
    second.latch.trans first.latch⟩

theorem Served.refl (c : AgentCtx) : c.Served c :=
  ⟨.refl c, .inl rfl⟩

theorem Served.trans (first : c.Served d) (second : d.Served e) : c.Served e where
  toOwnKept := first.toOwnKept.trans second.toOwnKept
  res := second.res.elim (fun same => first.res.imp same.trans fun done => same ▸ done) .inr

end AgentCtx

/-! ### Serving other parties: grants, hand-offs, admissions and notices -/

/-- Every context is served at most. -/
def Serves (s s' : State) : Prop :=
  ∀ a, (s.agent a).Served (s'.agent a)

variable {s u v : State} {t : Agent}

theorem Serves.of_agents (same : u.agents = s.agents) : Serves s u := fun a => by
  rw [State.agent, State.agent, same]
  exact .refl _

theorem Serves.trans (first : Serves s u) (second : Serves u v) : Serves s v := fun a =>
  (first a).trans (second a)

theorem Serves.foldl {α : Type} {f : State → α → State} (each : ∀ s x, Serves s (f s x))
    (xs : List α) (s : State) : Serves s (xs.foldl f s) := by
  induction xs generalizing s with
  | nil => exact .of_agents rfl
  | cons x xs ih => exact (each s x).trans (ih (f s x))

theorem serves_setAgent (a : Agent) {c : AgentCtx} (served : (s.agent a).Served c) :
    Serves s (s.setAgent a c) := fun x => by
  rw [setAgent_agent]
  split
  · next self => exact self ▸ served
  · exact .refl _

theorem serves_setNotice (s : State) (a : Agent) (n : Notice) : Serves s (s.setNotice a n) :=
  serves_setAgent a ⟨⟨rfl, rfl, rfl, rfl, rfl⟩, .inl rfl⟩

theorem serves_recordViolation (s : State) (t : Agent) (e : ViolationEvent) :
    Serves s (s.recordViolation t e) := by
  cases capture : s.sup.capture with
  | none =>
    rw [recordViolation_empty s t e capture]
    exact (Serves.of_agents rfl).trans (serves_setNotice _ _ _)
  | some c =>
    rw [recordViolation_full s t e capture]
    exact .of_agents rfl

theorem serves_reckonStoreEmpty (s u : State) : Serves u (reckonStoreEmpty s u) := by
  unfold reckonStoreEmpty
  split
  · exact serves_setNotice u _ _
  · exact .of_agents rfl

/-- A wait that another party's command ends, ends with DONE. -/
theorem serves_endWait (s : State) (a : Agent) {r : Result} (done : r.code = .done) :
    Serves s (s.endWait a r) :=
  serves_setAgent a ⟨⟨rfl, rfl, rfl, rfl, rfl⟩, .inr done⟩

theorem serves_passLock (s : State) (l : LockId) (lost : Bool) : Serves s (passLock s l lost) := by
  unfold passLock
  split
  · exact .of_agents rfl
  · exact (Serves.of_agents rfl).trans (serves_endWait _ _ rfl)

theorem serves_handOff (s : State) (q : QueueId) (m : Message) (r : Receiver) :
    Serves s (s.handOff q m r) := by
  rw [handOff_eq]
  exact (Serves.of_agents rfl).trans
    (serves_setAgent _ ⟨⟨rfl, rfl, rfl, rfl, rfl⟩, .inr rfl⟩)

theorem serves_admitMessage (s : State) (q : QueueId) (m : Message) :
    Serves s (s.admitMessage q m) := fun a => by
  rw [admit_agent]
  exact ⟨⟨rfl, rfl, rfl, rfl, rfl⟩, .inl rfl⟩

theorem serves_completeSender (s : State) (a : Agent) (seq : Word) :
    Serves s (s.completeSender a seq) :=
  (Serves.of_agents rfl).trans (serves_endWait _ a rfl)

theorem serves_serveSender (s : State) (a : Agent) : Serves s (serveSender s a) := by
  unfold serveSender
  split
  · split
    · next q m _ =>
      split
      · exact (serves_handOff s q m _).trans (serves_completeSender _ a _)
      · split
        · exact (serves_admitMessage s q m).trans (serves_completeSender _ a _)
        · exact .of_agents rfl
    · exact .of_agents rfl
  · exact .of_agents rfl

theorem serves_admissionPass (s : State) : Serves s (admissionPass s) :=
  .foldl serves_serveSender _ s

/-! ### What a cycle of one tag leaves of the other agents -/

/-- The own registers of every agent but `t` are kept. -/
def OthersKept (t : Agent) (s s' : State) : Prop :=
  ∀ a, a ≠ t → (s.agent a).OwnKept (s'.agent a)

theorem OthersKept.trans (first : OthersKept t s u) (second : OthersKept t u v) :
    OthersKept t s v := fun a other =>
  (first a other).trans (second a other)

theorem Serves.othersKept (serves : Serves s u) : OthersKept t s u := fun a _ =>
  (serves a).toOwnKept

theorem OthersKept.of_agents (same : u.agents = s.agents) : OthersKept t s u :=
  (Serves.of_agents same).othersKept

theorem OthersKept.refl (t : Agent) (s : State) : OthersKept t s s :=
  .of_agents rfl

theorem othersKept_setLock (s : State) (t : Agent) (l : LockId) (k : Lock) :
    OthersKept t s (s.setLock l k) :=
  .of_agents rfl

theorem othersKept_setQueue (s : State) (t : Agent) (q : QueueId) (k : Queue) :
    OthersKept t s (s.setQueue q k) :=
  .of_agents rfl

theorem othersKept_setAgent (s : State) (t : Agent) (c : AgentCtx) :
    OthersKept t s (s.setAgent t c) := fun a other => by
  rw [setAgent_agent_ne _ _ _ other]
  exact .refl _

/-! ### What a refusal leaves (R109) -/

/-- The result of `t` is one of a command that was accepted. -/
def Accepted (t : Agent) (s : State) : Prop :=
  (s.agent t).res.code ∈ [ResCode.done, .pending, .cancelled]

theorem Accepted.served (accepted : Accepted t s) (serves : Serves s u) : Accepted t u := by
  rcases (serves t).res with same | done
  · rw [Accepted, same]
    exact accepted
  · simp [Accepted, done]

theorem accepted_setAgent {c : AgentCtx} (code : c.res.code ∈ [ResCode.done, .pending, .cancelled]) :
    Accepted t (s.setAgent t c) := by
  rwa [Accepted, setAgent_agent_self]

/-- The three ways in which an owner answers command `c` of agent `t`. -/
inductive CommandEnd (s : State) (t : Agent) (c : AgentCmd) : State → Prop
  | refused (code : ResCode) (plain : code ≠ .denied) : CommandEnd s t c (s.refuse t code)
  | denied (object : Nat) : CommandEnd s t c (s.deny t c object)
  | accepted {s' : State} (accepted : Accepted t s') (kept : OthersKept t s s') :
      CommandEnd s t c s'

section Accepts

variable {c : AgentCmd} (kept : OthersKept t s u)
include kept

theorem CommandEnd.answer {x : AgentCtx}
    (code : x.res.code ∈ [ResCode.done, .pending, .cancelled]) :
    CommandEnd s t c (u.setAgent t x) :=
  .accepted (accepted_setAgent code) (kept.trans (othersKept_setAgent u t x))

theorem CommandEnd.done {v : Word} : CommandEnd s t c (u.done t v) :=
  .answer kept (by simp [Result.doneWith])

theorem CommandEnd.startWait {w : Want} {timeout : Word} :
    CommandEnd s t c (u.startWait t w timeout) :=
  .answer kept (by simp [Result.plain])

theorem CommandEnd.granted {broken : Bool} :
    CommandEnd s t c (u.setResult t (.granted broken)) :=
  .answer kept (by simp [Result.granted])

theorem CommandEnd.delivered {m : Message} : CommandEnd s t c (u.setResult t (.delivered m)) :=
  .answer kept (by simp [Result.delivered])

end Accepts

theorem unreserved_refuse (s : State) (t : Agent) (code : ResCode) :
    (s.refuse t code).unreserved = s.unreserved :=
  unreserved_congr rfl rfl

theorem unreserved_deny (s : State) (t : Agent) (c : AgentCmd) (object : Nat) :
    (s.deny t c object).unreserved = s.unreserved := by
  obtain ⟨-, queues, free, -⟩ :=
    recordViolation_frame (s.refuse t .denied) t (.command c (BitVec.ofNat 6 object))
  exact unreserved_congr free queues

/-- A refusal takes no slot, so there is nothing to reckon (R31). -/
theorem CommandEnd.reckoned {c : AgentCmd} (ends : CommandEnd s t c u) :
    CommandEnd s t c (reckonStoreEmpty s u) := by
  cases ends with
  | refused code plain =>
    rw [reckonStoreEmpty_of_not_fallen (by rw [unreserved_refuse]; omega)]
    exact .refused code plain
  | denied object =>
    rw [reckonStoreEmpty_of_not_fallen (by rw [unreserved_deny]; omega)]
    exact .denied object
  | accepted accepted kept =>
    have serves := serves_reckonStoreEmpty s u
    exact .accepted (accepted.served serves) (kept.trans serves.othersKept)

section Owners

variable (s t)

theorem commandEnd_acquireNested (l : LockId) (h : Hold) :
    CommandEnd s t .acquire (acquireNested s t l h) := by
  unfold acquireNested
  split
  · exact .refused _ nofun
  · exact .done (othersKept_setLock s t l _)

theorem commandEnd_acquireWait (l : LockId) (h : Hold) :
    CommandEnd s t .acquire (acquireWait s t l h) := by
  unfold acquireWait
  split
  · exact .refused _ nofun
  · split
    · exact .refused _ nofun
    · exact .startWait (othersKept_setLock s t l _)

theorem commandEnd_acquire (l : LockId) : CommandEnd s t .acquire (acquire s t l) := by
  unfold acquire
  split
  · exact .refused _ nofun
  · split
    · exact .denied _
    · split
      · exact .granted (othersKept_setLock s t l _)
      · next h _ =>
        split
        · exact commandEnd_acquireNested s t l h
        · split
          · exact .refused _ nofun
          · exact commandEnd_acquireWait s t l h

theorem commandEnd_release (l : LockId) : CommandEnd s t .release (release s t l) := by
  unfold release
  split
  · exact .refused _ nofun
  · split
    · exact .refused _ nofun
    · split
      · exact .done (othersKept_setLock s t l _)
      · exact .done (serves_passLock s l false).othersKept

theorem commandEnd_renew (l : LockId) : CommandEnd s t .renew (renew s t l) := by
  unfold renew
  split
  · exact .refused _ nofun
  · split
    · exact .refused _ nofun
    · exact .done (othersKept_setLock s t l _)

theorem commandEnd_sendBlocked (q : QueueId) (mode : Mode) (m : Message) :
    CommandEnd s t .send (sendBlocked s t q mode m) := by
  unfold sendBlocked
  split
  · exact .refused _ nofun
  · split
    · exact .refused _ nofun
    · refine .startWait ?_
      exact .of_agents rfl

theorem commandEnd_sendOffer (q : QueueId) (mode : Mode) (m : Message) :
    CommandEnd s t .send (sendOffer s t q mode m) := by
  unfold sendOffer
  split
  · exact .done (serves_handOff s q m _).othersKept
  · split
    · exact .done (serves_admitMessage s q m).othersKept
    · exact commandEnd_sendBlocked s t q mode m

theorem commandEnd_send (q : QueueId) : CommandEnd s t .send (send s t q) := by
  unfold send
  split
  · exact .refused _ nofun
  · split
    · exact .refused _ nofun
    · split
      · exact .denied _
      · split
        · exact .refused _ nofun
        · exact .refused _ nofun
        · exact (commandEnd_sendOffer s t q _ _).reckoned

theorem accepted_takeMessage (q : QueueId) (p : Stored → Bool) (d : Stored) :
    Accepted t (takeMessage s t q p d) :=
  accepted_setAgent (by simp [Result.delivered])

theorem othersKept_takeMessage (q : QueueId) (p : Stored → Bool) (d : Stored) :
    OthersKept t s (takeMessage s t q p d) := by
  refine OthersKept.trans (OthersKept.trans ?_ (othersKept_setAgent _ t _)) (othersKept_setAgent _ t _)
  exact .of_agents rfl

/-- A message that RECEIVE takes makes it DONE, and the admission pass leaves it so. -/
theorem commandEnd_takeMessage (q : QueueId) (p : Stored → Bool) (d : Stored) :
    CommandEnd s t .receive (admissionPass (takeMessage s t q p d)) :=
  have serves := serves_admissionPass (takeMessage s t q p d)
  .accepted ((accepted_takeMessage s t q p d).served serves)
    ((othersKept_takeMessage s t q p d).trans serves.othersKept)

theorem commandEnd_takeFromSender (q : QueueId) (a : Agent) (m : Message) :
    CommandEnd s t .receive (takeFromSender s t q a m) :=
  .delivered (((othersKept_setQueue s t q _).trans (serves_completeSender _ a _).othersKept).trans
    (othersKept_setAgent _ t _))

theorem commandEnd_receiveBlocked (q : QueueId) (mode : Mode) (label mask : Word) :
    CommandEnd s t .receive (receiveBlocked s t q mode label mask) := by
  unfold receiveBlocked
  split
  · exact .refused _ nofun
  · split
    · exact .refused _ nofun
    · exact .startWait (othersKept_setQueue s t q _)

theorem commandEnd_receiveSearch (q : QueueId) (mode : Mode) (label mask : Word) :
    CommandEnd s t .receive (receiveSearch s t q mode label mask) := by
  unfold receiveSearch
  split
  · exact commandEnd_takeMessage s t q _ _
  · split
    · exact commandEnd_takeFromSender s t q _ _
    · exact commandEnd_receiveBlocked s t q mode label mask

theorem commandEnd_receive (q : QueueId) : CommandEnd s t .receive (receive s t q) := by
  unfold receive
  split
  · exact .refused _ nofun
  · split
    · exact .denied _
    · split
      · exact .denied _
      · split
        · exact .refused _ nofun
        · exact .refused _ nofun
        · exact (commandEnd_receiveSearch s t q _ _ _).reckoned

theorem commandEnd_bindQueue (q : QueueId) : CommandEnd s t .bind (bindQueue s t q) := by
  unfold bindQueue
  split
  · exact .denied _
  · split
    · exact .refused _ nofun
    · exact .refused _ nofun
    · split
      · split
        · exact .done (.refl t s)
        · exact .refused _ nofun
      · split
        · exact .done (othersKept_setQueue s t q _)
        · exact .refused _ nofun

theorem commandEnd_unbindQueue (q : QueueId) : CommandEnd s t .unbind (unbindQueue s t q) := by
  unfold unbindQueue
  split
  · exact .done (othersKept_setQueue s t q _)
  · exact .denied _

theorem commandEnd_watchQueue (q : QueueId) : CommandEnd s t .watch (watchQueue s t q) := by
  unfold watchQueue
  split
  · exact .denied _
  · split
    · exact .refused _ nofun
    · split
      · exact .refused _ nofun
      · exact .done (othersKept_setAgent s t _)

theorem commandEnd_unwatchQueue (q : QueueId) : CommandEnd s t .unwatch (unwatchQueue s t q) := by
  unfold unwatchQueue
  split
  · exact .refused _ nofun
  · exact .done (othersKept_setAgent s t _)

theorem commandEnd_attach : CommandEnd s t .attach (attach s t) := by
  unfold attach
  split
  · split
    · exact .answer (.refl t s) (by simp [Result.doneWith])
    · exact .denied _
  · exact .done (.refl t s)

theorem commandEnd_detach : CommandEnd s t .detach (detach s t) := by
  unfold detach
  split
  · exact .refused _ nofun
  · refine .done (OthersKept.trans ?_ (othersKept_setAgent _ t _))
    exact .of_agents rfl

theorem commandEnd_cancel : CommandEnd s t .cancel (cancel s t) := by
  unfold cancel
  split
  · obtain ⟨agents, -⟩ := leaveWaitList_frame s t
    exact .answer (.of_agents agents) (by simp [Result.plain])
  · exact .refused _ nofun

theorem commandEnd_ownerOf (c : AgentCmd) : CommandEnd s t c (ownerOf t c s) := by
  have badObject (c : AgentCmd) : CommandEnd s t c (s.refuse t .badObject) := .refused _ nofun
  cases c with
  | attach => exact commandEnd_attach s t
  | detach => exact commandEnd_detach s t
  | cancel => exact commandEnd_cancel s t
  | acquire => exact withLock_induct (badObject _) (commandEnd_acquire s t)
  | release => exact withLock_induct (badObject _) (commandEnd_release s t)
  | renew => exact withLock_induct (badObject _) (commandEnd_renew s t)
  | send => exact withQueue_induct (badObject _) (commandEnd_send s t)
  | receive => exact withQueue_induct (badObject _) (commandEnd_receive s t)
  | bind => exact withQueue_induct (badObject _) (commandEnd_bindQueue s t)
  | unbind => exact withQueue_induct (badObject _) (commandEnd_unbindQueue s t)
  | watch => exact withQueue_induct (badObject _) (commandEnd_watchQueue s t)
  | unwatch => exact withQueue_induct (badObject _) (commandEnd_unwatchQueue s t)

end Owners

theorem portCheck_ne_denied {p : Port} {c : Option AgentCmd} {code : ResCode}
    (refused : portCheck p c = some code) : code ≠ .denied := by
  rintro rfl
  cases p with
  | retiring => cases refused
  | detached | waiting | attached =>
    simp only [portCheck] at refused
    split at refused <;> cases refused

theorem commandEnd_command (c : AgentCmd) (t : Agent) (s : State) :
    CommandEnd s t c (effectOf (c.command t) s) := by
  cases check : portCheck (s.agent t).port (some c) with
  | none =>
    rw [effectOf_command, acceptCommand_passed _ check]
    exact commandEnd_ownerOf s t c
  | some code =>
    rw [effectOf_command_refused check]
    exact .refused code (portCheck_ne_denied check)

theorem refuse_code (s : State) (t : Agent) (code : ResCode) :
    ((s.refuse t code).agent t).res.code = code := by
  rw [refuse_eq, setAgent_agent_self, Result.plain]

/-- The record of a violation reaches a context by its notices alone. -/
theorem recordViolation_res (s : State) (t : Agent) (e : ViolationEvent) (a : Agent) :
    ((s.recordViolation t e).agent a).res = (s.agent a).res := by
  cases capture : s.sup.capture with
  | none =>
    rw [recordViolation_empty s t e capture, setNotice_eq, setAgent_agent]
    split
    · next self => exact self ▸ rfl
    · rfl
  | some c => rw [recordViolation_full s t e capture, State.agent, State.agent]

theorem deny_code (s : State) (t : Agent) (c : AgentCmd) (object : Nat) :
    ((s.deny t c object).agent t).res.code = .denied := by
  rw [State.deny, recordViolation_res, refuse_code]

/-- Settles O17: a result of another code than DONE, PENDING and CANCELLED is a refusal's. -/
theorem refusalChangesOnlyResult : Obligations.RefusalChangesOnlyResult := by
  intro t c s s' running run refusal
  rw [exec_command_running running] at run
  obtain rfl := Host.Outcome.next.inj run
  have ends := commandEnd_command c t s
  generalize effectOf (c.command t) s = u at ends refusal ⊢
  cases ends with
  | refused code plain =>
    have result : ((s.refuse t code).answerWrite.agent t).res.code = code := refuse_code s t code
    rw [result]
    exact ⟨fun _ => rfl, fun denied => absurd denied plain⟩
  | denied object =>
    have result : ((s.deny t c object).answerWrite.agent t).res.code = .denied :=
      deny_code s t c object
    exact ⟨fun other => absurd result other, fun _ => ⟨.ofNat 6 object, rfl⟩⟩
  | accepted accepted _ => exact absurd accepted refusal

/-! ### Every cycle on an agent page -/

theorem CommandEnd.othersKept {c : AgentCmd} (ends : CommandEnd s t c u) : OthersKept t s u := by
  cases ends with
  | refused => exact othersKept_setAgent s t _
  | denied => exact (othersKept_setAgent s t _).trans (serves_recordViolation _ _ _).othersKept
  | accepted _ kept => exact kept

theorem othersKept_command (c : AgentCmd) {x : Agent}
    (page : (c.command x).agentPageTag = some t) :
    OthersKept t s (effectOf (c.command x) s) := by
  obtain rfl : x = t := by cases c <;> exact Option.some.inj page
  exact (commandEnd_command c x s).othersKept

theorem othersKept_writeCmd (s : State) (t : Agent) (code : Word) :
    OthersKept t s (writeCmd s t code) := by
  cases known : AgentCmd.ofCode code with
  | none =>
    rw [writeCmd_unknown known]
    exact acceptCommand_induct (fun code => othersKept_setAgent s t _) (.refl t s)
  | some c =>
    rw [writeCmd_known known]
    exact (commandEnd_command c t s).othersKept

theorem othersKept_writeAgentReg (s : State) (t : Agent) (r : AgentReg) (v : Word) :
    OthersKept t s (writeAgentReg s t r v) := by
  cases r with
  | cmd => exact othersKept_writeCmd s t v
  | operand | nen | shdr | slabel | stg => exact othersKept_setAgent s t _
  | _ => exact .refl t s

theorem busWrite_agentPage {off : Offset} (page : Offset.supervisorPage off = false) (t : Agent)
    (v : Word) : busWrite s t off v = writeAgentReg s t (AgentReg.ofOffset off) v := by
  simp only [busWrite, page, Bool.false_eq_true, if_false]

theorem othersKept_effectOf {c : Instr} (page : c.agentPageTag = some t) :
    OthersKept t s (effectOf c s) := by
  cases c with
  | attach => exact othersKept_command .attach page
  | detach => exact othersKept_command .detach page
  | cancel => exact othersKept_command .cancel page
  | acquire => exact othersKept_command .acquire page
  | release => exact othersKept_command .release page
  | renew => exact othersKept_command .renew page
  | send => exact othersKept_command .send page
  | receive => exact othersKept_command .receive page
  | bind => exact othersKept_command .bind page
  | unbind => exact othersKept_command .unbind page
  | watch => exact othersKept_command .watch page
  | unwatch => exact othersKept_command .unwatch page
  | noteRead x | nenWrite x _ | tickloRead x | tickhiRead x =>
    obtain rfl : x = t := Option.some.inj page
    exact othersKept_setAgent s x _
  | unknownAgentCommandCode x code =>
    obtain rfl : x = t := Option.some.inj page
    exact othersKept_writeCmd s x code
  | registerWrite x off v =>
    rw [Instr.agentPageTag] at page
    split at page
    · cases page
    · next agentPage =>
      obtain rfl : x = t := Option.some.inj page
      rw [effectOf, busWrite_agentPage (Bool.eq_false_iff.mpr agentPage)]
      exact othersKept_writeAgentReg s x _ v
  | _ => cases page

theorem OthersKept.ended {x : State} (ends : Ending s u x) (kept : OthersKept t s u) :
    OthersKept t s x := by
  cases ends with
  | dropped | unanswered => exact .of_agents rfl
  | taken | answered => exact kept

/-- Settles O24: what a cycle of one tag does to another agent is to serve it. -/
theorem otherAgentsOperandsStagingEnableWatchAndLatchKept :
    Obligations.OtherAgentsOperandsStagingEnableWatchAndLatchKept := by
  intro c t a s s' run page other
  obtain ⟨operands, staging, enable, watch, latch⟩ :=
    (othersKept_effectOf page).ended (exec_ending run) a other
  exact ⟨operands, staging, enable, watch, latch⟩

end Sys2Proof.Machine

/-! The command codes, and what the two pages take on a write and give on a read (chapters 6, 9 and 10). -/

namespace Sys2Proof.Machine

variable {s : State} {t : Agent}

/-! ### A write cycle is what its access does to this state -/

theorem writeCycle_congr {f g : State → State} (same : f s = g s) :
    writeCycle s f = writeCycle s g := by
  rw [writeCycle, writeCycle, same]

theorem busWrite_supervisorPage {off : Offset} (page : Offset.supervisorPage off = true)
    (v : Word) : busWrite s s.sup.tag off v = writeSupReg s (SupReg.ofOffset off) v := by
  simp only [busWrite, page, if_true]

/-! ### The command codes (Table 10-3) -/

theorem AgentCmd.ofCode_code (c : AgentCmd) : AgentCmd.ofCode c.code = some c := by
  cases c <;> rfl

theorem SupCmd.ofCode_code (c : SupCmd) : SupCmd.ofCode c.code = some c := by
  cases c <;> rfl

theorem AgentCmd.code_of_ofCode {w : Word} {c : AgentCmd} (known : AgentCmd.ofCode w = some c) :
    w = c.code := by
  unfold AgentCmd.ofCode at known
  split at known
  case h_13 => cases known
  all_goals
    next number =>
      obtain rfl := Option.some.inj known
      exact BitVec.eq_of_toNat_eq number

theorem SupCmd.code_of_ofCode {w : Word} {c : SupCmd} (known : SupCmd.ofCode w = some c) :
    w = c.code := by
  unfold SupCmd.ofCode at known
  split at known
  case h_10 => cases known
  all_goals
    next number =>
      obtain rfl := Option.some.inj known
      exact BitVec.eq_of_toNat_eq number

/-- The codes of the agent commands, in the order of Table 6-3. -/
def agentCodes : List (AgentCmd × Word) :=
  [(.attach, 0x01), (.detach, 0x02), (.cancel, 0x03), (.acquire, 0x10), (.release, 0x11),
    (.renew, 0x12), (.send, 0x20), (.receive, 0x21), (.bind, 0x22), (.unbind, 0x23), (.watch, 0x24),
    (.unwatch, 0x25)]

/-- The codes of the supervisor commands, in the order of Table 9-1. -/
def supCodes : List (SupCmd × Word) :=
  [(.lockConfig, 0x40), (.queueOpen, 0x41), (.queueClose, 0x42), (.queuePurge, 0x43),
    (.retire, 0x44), (.quiesce, 0x45), (.resume, 0x46), (.ackViolation, 0x47), (.clear, 0x4F)]

theorem code_of_mem_agentCodes : ∀ x ∈ agentCodes, x.1.code = x.2 := by decide

theorem code_of_mem_supCodes : ∀ x ∈ supCodes, x.1.code = x.2 := by decide

theorem AgentCmd.ofCode_isNone_iff {code : Word} :
    (AgentCmd.ofCode code).isNone = true ↔ code ∉ agentCodes.map Prod.snd := by
  cases known : AgentCmd.ofCode code with
  | some c =>
    obtain rfl := AgentCmd.code_of_ofCode known
    have listed : c.code ∈ agentCodes.map Prod.snd := by cases c <;> decide
    simp [listed]
  | none =>
    refine ⟨fun _ listed => ?_, fun _ => rfl⟩
    obtain ⟨x, mem, rfl⟩ := List.mem_map.mp listed
    rw [← code_of_mem_agentCodes x mem, AgentCmd.ofCode_code] at known
    cases known

theorem SupCmd.ofCode_isNone_iff {code : Word} :
    (SupCmd.ofCode code).isNone = true ↔ code ∉ supCodes.map Prod.snd := by
  cases known : SupCmd.ofCode code with
  | some c =>
    obtain rfl := SupCmd.code_of_ofCode known
    have listed : c.code ∈ supCodes.map Prod.snd := by cases c <;> decide
    simp [listed]
  | none =>
    refine ⟨fun _ listed => ?_, fun _ => rfl⟩
    obtain ⟨x, mem, rfl⟩ := List.mem_map.mp listed
    rw [← code_of_mem_supCodes x mem, SupCmd.ofCode_code] at known
    cases known

/-- A write of CMD of a command's code is the command. -/
theorem exec_write_cmd (t : Agent) (c : AgentCmd) (s : State) :
    exec (.registerWrite t 0x00 c.code) s = exec (c.command t) s := by
  rw [exec_registerWrite, exec_command]
  refine writeCycle_congr ?_
  rw [busWrite_agentPage rfl]
  exact writeCmd_known (AgentCmd.ofCode_code c)

theorem exec_supCommand (c : SupCmd) (s : State) :
    exec c.command s = writeCycle s (effectOf c.command) := by
  cases c <;> rfl

/-- A write of SCMD of a command's code by the supervisor is the command. -/
theorem exec_write_scmd (c : SupCmd) (s : State) :
    exec (.registerWrite s.sup.tag 0x80 c.code) s = exec c.command s := by
  rw [exec_registerWrite, exec_supCommand]
  refine writeCycle_congr ?_
  rw [busWrite_supervisorPage rfl]
  exact writeScmd_known (SupCmd.ofCode_code c)

/-- Settles O28: a code determines its command, so every other code is unknown. -/
theorem commandCodesStartCommands : Obligations.CommandCodesStartCommands := by
  refine ⟨fun t s => ⟨fun c => exec_write_cmd t c s, fun c => exec_write_scmd c s⟩,
    fun code s running unknown => ?_, fun x listed => ?_, fun x listed => ?_,
    fun t code => ⟨AgentCmd.ofCode_isNone_iff, SupCmd.ofCode_isNone_iff⟩⟩
  · rw [exec_unknownSupervisorCommandCode, writeCycle_running s _ running,
      writeScmd_unknown (Option.isNone_iff_eq_none.mp unknown), State.supResult]
  · have code := code_of_mem_agentCodes x listed
    exact ⟨code, fun t s => code ▸ exec_write_cmd t x.1 s⟩
  · have code := code_of_mem_supCodes x listed
    exact ⟨code, fun s => code ▸ exec_write_scmd x.1 s⟩

/-! ### Writes of the other registers -/

theorem exec_write_agentReg (running : Running s) {off : Offset} {r : AgentReg}
    (at_off : Offset.supervisorPage off = false ∧ AgentReg.ofOffset off = r) (v : Word) :
    exec (.registerWrite t off v) s = .next (writeAgentReg s t r v).answerWrite := by
  obtain ⟨page, rfl⟩ := at_off
  rw [exec_registerWrite, writeCycle_running s _ running, busWrite_agentPage page]

theorem exec_write_supReg (running : Running s) {off : Offset} {r : SupReg}
    (at_off : Offset.supervisorPage off = true ∧ SupReg.ofOffset off = r) (v : Word) :
    exec (.registerWrite s.sup.tag off v) s = .next (writeSupReg s r v).answerWrite := by
  obtain ⟨page, rfl⟩ := at_off
  rw [exec_registerWrite, writeCycle_running s _ running, busWrite_supervisorPage page]

theorem operand_offset : ∀ i : Fin 5,
    Offset.supervisorPage (BitVec.ofNat 8 (2 + 2 * i.val)) = false ∧
    AgentReg.ofOffset (BitVec.ofNat 8 (2 + 2 * i.val)) = .operand i := by decide

theorem stg_offset : ∀ i : Fin 8,
    Offset.supervisorPage (BitVec.ofNat 8 (0x1E + 2 * i.val)) = false ∧
    AgentReg.ofOffset (BitVec.ofNat 8 (0x1E + 2 * i.val)) = .stg i := by decide

theorem supOperand_offset : ∀ i : Fin 5,
    Offset.supervisorPage (BitVec.ofNat 8 (0x82 + 2 * i.val)) = true ∧
    SupReg.ofOffset (BitVec.ofNat 8 (0x82 + 2 * i.val)) = .operand i := by decide

/-- A register of the agent page that a write leaves as it is (R161). -/
def agentReadOnly : AgentReg → Bool
  | .res | .resv | .pstate | .note | .ticklo | .tickhi | .dhdr | .dlabel | .dseq | .dlv _
  | .unused => true
  | _ => false

/-- A register of the supervisor page that a write leaves as it is (R161). -/
def supReadOnly : SupReg → Bool
  | .scmd | .operand _ | .permit | .tickdiv | .lockSel | .qsel => false
  | _ => true

theorem writeAgentReg_readOnly {r : AgentReg} (readOnly : agentReadOnly r = true) (v : Word) :
    writeAgentReg s t r v = s := by
  cases r with
  | cmd | operand | nen | shdr | slabel | stg => cases readOnly
  | _ => rfl

theorem writeSupReg_readOnly {r : SupReg} (readOnly : supReadOnly r = true) (v : Word) :
    writeSupReg s r v = s := by
  cases r with
  | scmd | operand | permit | tickdiv | lockSel | qsel => cases readOnly
  | _ => rfl

/-- Table 10-1 by its offsets: 0Ch to 12h, 16h, 18h, and 2Eh upwards take no write. -/
theorem agentReadOnly_offset : ∀ off : Offset, off.getLsbD 0 = false →
    0x0C ≤ off.toNat ∧ off.toNat ≤ 0x12 ∨ off = 0x16 ∨ off = 0x18 ∨
      0x2E ≤ off.toNat ∧ off.toNat ≤ 0x7E →
    Offset.supervisorPage off = false ∧ agentReadOnly (AgentReg.ofOffset off) = true := by
  decide +kernel

/-- Table 10-2 by its offsets. -/
theorem supReadOnly_offset : ∀ off : Offset, off.getLsbD 0 = false →
    off = 0x8C ∨ off = 0x8E ∨ 0x94 ≤ off.toNat ∧ off.toNat ≤ 0xA0 ∨
      0xA4 ≤ off.toNat ∧ off.toNat ≤ 0xAA ∨ 0xAE ≤ off.toNat →
    Offset.supervisorPage off = true ∧ supReadOnly (SupReg.ofOffset off) = true := by
  decide +kernel

/-- Settles O29: the register at the offset says what the write stores. -/
theorem plainRegisterWrites : Obligations.PlainRegisterWrites := by
  refine ⟨fun t v s running => ⟨fun i => ?_, ?_, ?_, fun i => ?_, fun off even range => ?_⟩,
    fun v s running => ⟨fun i => ?_, ?_, ?_, ?_, fun off even range => ?_⟩,
    fun s => ⟨fun waits => ?_, fun leaves => ?_⟩⟩
  · exact exec_write_agentReg running (operand_offset i) v
  · exact exec_write_agentReg (r := .shdr) running ⟨rfl, rfl⟩ v
  · exact exec_write_agentReg (r := .slabel) running ⟨rfl, rfl⟩ v
  · exact exec_write_agentReg running (stg_offset i) v
  · obtain ⟨page, readOnly⟩ := agentReadOnly_offset off even range
    rw [exec_write_agentReg running ⟨page, rfl⟩, writeAgentReg_readOnly readOnly]
  · exact exec_write_supReg running (supOperand_offset i) v
  · exact exec_write_supReg (r := .permit) running ⟨rfl, rfl⟩ v
  · exact exec_write_supReg (r := .lockSel) running ⟨rfl, rfl⟩ v
  · exact exec_write_supReg (r := .qsel) running ⟨rfl, rfl⟩ v
  · obtain ⟨page, readOnly⟩ := supReadOnly_offset off even range
    rw [exec_write_supReg running ⟨page, rfl⟩, writeSupReg_readOnly readOnly]
  · exact answerCycle_answered s waits
  · exact answerCycle_abandoned s leaves

end Sys2Proof.Machine

/-! What the registers read (section 10.4): fields laid out in a word, and the registers of the two pages. -/

namespace Sys2Proof.Machine

variable {s : State} {t : Agent}

/-! ### Fields of a word -/

/-- A field above the bits of a number is added to it. -/
theorem fieldAt_or_ofNat {v pos low : Nat} (fits : low < 2 ^ pos) :
    fieldAt v pos ||| BitVec.ofNat 16 low = BitVec.ofNat 16 (v * 2 ^ pos + low) := by
  rw [fieldAt, ← BitVec.ofNat_or, Nat.mul_comm, Nat.two_pow_add_eq_or_of_lt fits]

theorem fieldAt_low (v : Nat) : fieldAt v 0 = BitVec.ofNat 16 v :=
  congrArg (BitVec.ofNat 16) (Nat.mul_one v)

theorem flagAt_eq_fieldAt (b : Bool) (pos : Nat) : flagAt b pos = fieldAt b.toNat pos := by
  cases b <;> simp [flagAt, fieldAt]

theorem toNat_mul_eq_ite (b : Bool) (n : Nat) : b.toNat * n = if b then n else 0 := by
  cases b <;> simp

theorem optNumber_eq_elim {n : Nat} (x : Option (Fin n)) : optNumber x = x.elim 0 (·.val) := by
  cases x <;> rfl

/-! ### Which register an offset reads -/

theorem readReg_agentPage {off : Offset} {r : AgentReg}
    (at_off : Offset.supervisorPage off = false ∧ AgentReg.ofOffset off = r) :
    s.readReg t off = readAgentReg s t r := by
  obtain ⟨page, rfl⟩ := at_off
  simp only [State.readReg, page, Bool.false_eq_true, if_false]

theorem readReg_supervisorPage {off : Offset} {r : SupReg}
    (at_off : Offset.supervisorPage off = true ∧ SupReg.ofOffset off = r) :
    s.readReg s.sup.tag off = readSupReg s r := by
  obtain ⟨page, rfl⟩ := at_off
  simp only [State.readReg, page, if_true]

/-- The supervisor page reads 0 to every other tag (R147). -/
theorem readReg_otherTag {off : Offset} (other : t ≠ s.sup.tag)
    (page : Offset.supervisorPage off = true) : s.readReg t off = 0 := by
  simp only [State.readReg, page, if_true, if_neg other]

theorem selected_of_eq {n : Nat} {sel : Word} {x : Fin n} (read : Fin n → Word)
    (names : sel.toNat = x.val) : selected n sel read = read x := by
  rw [selected, objectOf_of_eq names]

theorem selected_of_ge {n : Nat} {sel : Word} (read : Fin n → Word) (above : n ≤ sel.toNat) :
    selected n sel read = 0 := by
  rw [selected, objectOf_of_ge above]

/-! ### PSTATE, RES and RESV -/

/-- PSTATE of a pending command: its object, its kind and the number of WAITING (Table 10-5). -/
theorem pstate_waiting {p : Port} {object kind : Nat} (number : p.number = 2)
    (ofKind : p.kindNumber = kind) (of : p.object = object) (kinds : kind < 4) :
    p.pstate = BitVec.ofNat 16 (object * 256 + kind * 4 + 2) := by
  rw [Port.pstate, number, ofKind, of, BitVec.or_assoc, fieldAt_low,
    fieldAt_or_ofNat (by decide : 2 < 2 ^ 2), fieldAt_or_ofNat (by omega)]
  exact congrArg (BitVec.ofNat 16) (by omega)

theorem resv_plain (c : ResCode) : (Result.plain c).resv = 0 := by
  simp [Result.resv, Result.plain, flagAt]

theorem resv_doneWith (v : Word) : (Result.doneWith v).resv = v := by
  simp [Result.resv, Result.doneWith, flagAt]

theorem resv_granted (broken : Bool) :
    (Result.granted broken).resv = if broken then 0x8001 else 0x0001 := by
  cases broken <;> rfl

/-- The flags of a delivery stand above its length (Table 10-4). -/
theorem resv_delivered {m : Message} (short : m.payload.length ≤ 8) :
    (Result.delivered m).resv = BitVec.ofNat 16 (m.payload.length +
      (if m.urgency = .urgent then 0x4000 else 0) + (if m.reply = none then 0 else 0x2000)) := by
  have urgentBit := (m.urgency == .urgent).toNat_le
  have replyBit := m.reply.isSome.toNat_le
  rw [Result.resv, Result.delivered, BitVec.or_assoc, BitVec.or_assoc, BitVec.or_comm,
    BitVec.or_assoc, BitVec.or_assoc]
  simp only [flagAt_eq_fieldAt]
  rw [fieldAt_or_ofNat (by omega), fieldAt_or_ofNat (by omega), fieldAt_or_ofNat (by omega)]
  have urgent : (if m.urgency = .urgent then 0x4000 else 0) =
      (m.urgency == .urgent).toNat * 0x4000 := by
    cases m.urgency <;> simp
  have reply : (if m.reply = none then 0 else 0x2000) = m.reply.isSome.toNat * 0x2000 := by
    cases m.reply <;> simp
  rw [urgent, reply, Bool.toNat_false]
  exact congrArg (BitVec.ofNat 16) (by omega)

/-! ### The inspection registers (Table 10-8) -/

theorem info_free {k : Lock} (free : k.hold = none) :
    k.info = if k.broken then 0x4000 else 0 := by
  rw [Lock.info, free]
  cases k.broken <;> rfl

theorem info_held {k : Lock} {h : Hold} (held : k.hold = some h) (whole : k.broken = false)
    (depth : h.depth ≤ 15) :
    k.info = BitVec.ofNat 16 (0x8000 + h.holder.val * 256 + h.depth) := by
  have holder := h.holder.isLt
  simp only [Lock.info, held, whole, flagAt_eq_fieldAt, Bool.toNat_true, Bool.toNat_false,
    fieldAt_low, BitVec.or_assoc]
  rw [fieldAt_or_ofNat (by omega), fieldAt_or_ofNat (by omega), fieldAt_or_ofNat (by omega)]
  exact congrArg (BitVec.ofNat 16) (by omega)

theorem leaseWord_eq (k : Lock) :
    k.leaseWord = BitVec.ofNat 16 ((k.hold.bind (·.lease)).getD 0) := by
  unfold Lock.leaseWord
  cases k.hold with
  | none => rfl
  | some h => cases lease : h.lease <;> simp [lease]

theorem waitWord_eq {k : Lock} (few : k.waiters.length ≤ 15) :
    k.waitWord = BitVec.ofNat 16 (k.waiters.head?.elim 0 (·.val) * 256 + k.waiters.length) := by
  rw [Lock.waitWord, fieldAt_low, fieldAt_or_ofNat (by omega), optNumber_eq_elim]
  norm_num

theorem info_opened {k : Queue} {lim : Limits} (opened : k.state = .opened lim)
    (fits : k.held ≤ 256) : k.info = BitVec.ofNat 16 (0x4000 + k.held) := by
  simp only [Queue.info, opened]
  rw [fieldAt_low, fieldAt_or_ofNat (by omega)]
  norm_num

theorem info_purging {k : Queue} {lim : Limits} {b : Bool} (purging : k.state = .purging lim b)
    (fits : k.held ≤ 256) :
    k.info = BitVec.ofNat 16 (0x8000 + (if b then 0x2000 else 0) + k.held) := by
  have bit := b.toNat_le
  simp only [Queue.info, purging, flagAt_eq_fieldAt, fieldAt_low, BitVec.or_assoc]
  rw [fieldAt_or_ofNat (by omega), fieldAt_or_ofNat (by omega), ← toNat_mul_eq_ite]
  exact congrArg (BitVec.ofNat 16) (by omega)

theorem info_closed {k : Queue} (closed : k.state = .closed) :
    k.info = BitVec.ofNat 16 k.held := by
  simp only [Queue.info, closed, fieldAt_low]

theorem capacityWord_of_limits {k : Queue} {lim : Limits} (limits : k.state.limits = some lim) :
    k.capacityWord = BitVec.ofNat 16 lim.capacity := by
  rw [Queue.capacityWord, limits]

theorem reserveWord_of_limits {k : Queue} {lim : Limits} (limits : k.state.limits = some lim) :
    k.reserveWord = BitVec.ofNat 16 lim.reserve := by
  rw [Queue.reserveWord, limits]

theorem bindWord_unbound {k : Queue} (unbound : k.bound = none) : k.bindWord = 0 := by
  rw [Queue.bindWord, unbound]
  rfl

theorem bindWord_bound {k : Queue} {b : Agent} (bound : k.bound = some b) :
    k.bindWord = BitVec.ofNat 16 (0x8000 + b.val) := by
  have agent := b.isLt
  simp only [Queue.bindWord, bound, Option.isSome_some, optNumber, flagAt_eq_fieldAt,
    Bool.toNat_true, fieldAt_low]
  rw [fieldAt_or_ofNat (by omega)]
  norm_num

/-! ### The statement -/

theorem readReg_pstate : s.readReg t 0x10 = (s.agent t).port.pstate :=
  readReg_agentPage (r := .pstate) ⟨rfl, rfl⟩

theorem readReg_res : s.readReg t 0x0C = (s.agent t).res.code.number :=
  readReg_agentPage (r := .res) ⟨rfl, rfl⟩

theorem readReg_resv : s.readReg t 0x0E = (s.agent t).res.resv :=
  readReg_agentPage (r := .resv) ⟨rfl, rfl⟩

/-- The registers of the lock that the selector names. -/
theorem readReg_lock {l : LockId} (names : s.sup.lockSel.toNat = l.val) :
    s.readReg s.sup.tag 0xA4 = (s.lock l).info ∧
    s.readReg s.sup.tag 0xA6 = (s.lock l).leaseWord ∧
    s.readReg s.sup.tag 0xA8 = (s.lock l).waitWord ∧
    s.readReg s.sup.tag 0xAA = (s.lock l).useMask := by
  refine ⟨?_, ?_, ?_, ?_⟩
  all_goals exact (readReg_supervisorPage ⟨rfl, rfl⟩).trans (selected_of_eq _ names)

/-- The registers of the queue that the selector names. -/
theorem readReg_queue {q : QueueId} (names : s.sup.queueSel.toNat = q.val) :
    s.readReg s.sup.tag 0xAE = (s.queue q).info ∧
    s.readReg s.sup.tag 0xB0 = (s.queue q).capacityWord ∧
    s.readReg s.sup.tag 0xB2 = (s.queue q).reserveWord ∧
    s.readReg s.sup.tag 0xB6 = (s.queue q).bindWord ∧
    s.readReg s.sup.tag 0xB8 = (s.queue q).nextSeq := by
  refine ⟨?_, ?_, ?_, ?_, ?_⟩
  all_goals exact (readReg_supervisorPage ⟨rfl, rfl⟩).trans (selected_of_eq _ names)

theorem readReg_no_lock (above : 63 < s.sup.lockSel.toNat) :
    ∀ off ∈ [(0xA4 : Offset), 0xA6, 0xA8, 0xAA], s.readReg s.sup.tag off = 0 := by
  intro off listed
  simp only [List.mem_cons, List.not_mem_nil, or_false] at listed
  rcases listed with rfl | rfl | rfl | rfl
  all_goals exact (readReg_supervisorPage ⟨rfl, rfl⟩).trans (selected_of_ge _ above)

theorem readReg_no_queue (above : 31 < s.sup.queueSel.toNat) :
    ∀ off ∈ [(0xAE : Offset), 0xB0, 0xB2, 0xB4, 0xB6, 0xB8], s.readReg s.sup.tag off = 0 := by
  intro off listed
  simp only [List.mem_cons, List.not_mem_nil, or_false] at listed
  rcases listed with rfl | rfl | rfl | rfl | rfl | rfl
  all_goals exact (readReg_supervisorPage ⟨rfl, rfl⟩).trans (selected_of_ge _ above)

theorem readReg_res_number {c : ResCode} {w : Word} (number : c.number = w)
    (code : (s.agent t).res.code = c) : s.readReg t 0x0C = w := by
  rw [readReg_res, code, number]

/-- Settles O30: each register is a word of fields, and fields that do not overlap add up. -/
theorem registersRead : Obligations.RegistersRead := by
  refine ⟨fun t s => ⟨fun port => ?_, fun port => ?_, fun port => ?_, fun l d port => ?_,
    fun q m d port => ?_, fun q label mask d port => ?_, readReg_res, fun x listed => ?_,
    fun c res => ?_, fun v res => ?_, fun b res => ?_, fun m short res => ?_⟩,
    fun s => ⟨fun t off other page => readReg_otherTag other page,
      fun off listed above => readReg_no_lock above off listed,
      fun off listed above => readReg_no_queue above off listed, fun l names => ?_,
      fun q names fits => ?_⟩⟩
  · rw [readReg_pstate, port]; rfl
  · rw [readReg_pstate, port]; rfl
  · rw [readReg_pstate, port]; rfl
  · rw [readReg_pstate, port, pstate_waiting (kind := 1) rfl rfl rfl (by decide)]; rfl
  · rw [readReg_pstate, port, pstate_waiting (kind := 2) rfl rfl rfl (by decide)]; rfl
  · rw [readReg_pstate, port, pstate_waiting (kind := 3) rfl rfl rfl (by decide)]; rfl
  · have number : x.1.number = x.2 := by
      revert x
      decide
    exact ⟨number, readReg_res_number number⟩
  · rw [readReg_resv, res, resv_plain]
  · rw [readReg_resv, res, resv_doneWith]
  · rw [readReg_resv, res, resv_granted]
  · rw [readReg_resv, res, resv_delivered short]
  · obtain ⟨info, lease, wait, mask⟩ := readReg_lock names
    rw [info, lease, wait, mask]
    exact ⟨info_free, fun h held whole depth => info_held held whole depth, leaseWord_eq _,
      waitWord_eq, rfl⟩
  · obtain ⟨info, capacity, reserve, bind, seq⟩ := readReg_queue names
    rw [info, capacity, reserve, bind, seq]
    refine ⟨fun closed => ⟨info_closed closed, ?_, ?_⟩, fun lim opened =>
      ⟨info_opened opened fits, capacityWord_of_limits ?_, reserveWord_of_limits ?_⟩,
      fun lim b purging => ⟨info_purging purging fits, capacityWord_of_limits ?_,
        reserveWord_of_limits ?_⟩, bindWord_unbound, fun b bound => bindWord_bound bound, rfl⟩
    · rw [Queue.capacityWord, closed]; rfl
    · rw [Queue.reserveWord, closed]; rfl
    · rw [opened]; rfl
    · rw [opened]; rfl
    · rw [purging]; rfl
    · rw [purging]; rfl

end Sys2Proof.Machine

/-! Notices and attention (chapter 7): the read of NOTE, the write of NEN and ATNn#. Every event but these two, ATTACH, CLEAR and RESET leaves each agent's enable and only adds to its notices; the statements about them follow. -/

namespace Sys2Proof.Machine

/-! ### What one context keeps -/

/-- The enable is the same, and no kind has left the notice set (R123, R128). -/
structure AgentCtx.NoticesKept (c c' : AgentCtx) : Prop where
  enable : c'.enable = c.enable
  kinds : ∀ n, holdsNotice c.notices n = true → holdsNotice c'.notices n = true

namespace AgentCtx.NoticesKept

variable {c d e : AgentCtx}

theorem of_same (enable : d.enable = c.enable) (notices : d.notices = c.notices) :
    c.NoticesKept d :=
  ⟨enable, fun n held => by rwa [notices]⟩

/-- Kinds are added to the set. -/
theorem of_added {kinds : Word} (enable : d.enable = c.enable)
    (notices : d.notices = c.notices ||| kinds) : c.NoticesKept d :=
  ⟨enable, fun n held => by rw [notices, holdsNotice_or, held, Bool.true_or]⟩

theorem trans (first : c.NoticesKept d) (second : d.NoticesKept e) : c.NoticesKept e :=
  ⟨second.enable.trans first.enable, fun n held => second.kinds n (first.kinds n held)⟩

end AgentCtx.NoticesKept

/-! ### What an event keeps in every context -/

/-- In every context the enable and the kinds present are kept. -/
def NoticesKept (s s' : State) : Prop :=
  ∀ a, (s.agent a).NoticesKept (s'.agent a)

theorem NoticesKept.of_agents {s s' : State} (same : s'.agents = s.agents) :
    NoticesKept s s' := fun a => by
  rw [State.agent, State.agent, same]
  exact .of_same rfl rfl

/-- The later of two events is given first: it says what the earlier ends in. -/
theorem NoticesKept.after {s u s' : State} (later : NoticesKept u s') (earlier : NoticesKept s u) :
    NoticesKept s s' := fun a =>
  (earlier a).trans (later a)

theorem NoticesKept.foldl {β : Type} {f : State → β → State}
    (each : ∀ s b, NoticesKept s (f s b)) (entries : List β) (s : State) :
    NoticesKept s (entries.foldl f s) := by
  induction entries generalizing s with
  | nil => exact .of_agents rfl
  | cons b rest ih => exact (ih (f s b)).after (each s b)

theorem NoticesKept.ite {s u v : State} {p : Prop} [Decidable p] (taken : p → NoticesKept s u)
    (skipped : ¬ p → NoticesKept s v) : NoticesKept s (if p then u else v) := by
  split
  · next holds => exact taken holds
  · next fails => exact skipped fails

variable (s : State)

/-! ### Updates of one context -/

theorem noticesKept_setAgent (a : Agent) {c : AgentCtx} (kept : (s.agent a).NoticesKept c) :
    NoticesKept s (s.setAgent a c) := fun x => by
  rw [setAgent_agent]
  split
  · next self => exact self ▸ kept
  · exact .of_same rfl rfl

theorem noticesKept_setResult (t : Agent) (r : Result) : NoticesKept s (s.setResult t r) :=
  noticesKept_setAgent s t (.of_same rfl rfl)

theorem noticesKept_refuse (t : Agent) (c : ResCode) : NoticesKept s (s.refuse t c) :=
  noticesKept_setResult s t _

theorem noticesKept_done (t : Agent) (v : Word) : NoticesKept s (s.done t v) :=
  noticesKept_setResult s t _

theorem noticesKept_deliver (a : Agent) (d : Stored) : NoticesKept s (s.deliver a d) :=
  noticesKept_setAgent s a (.of_same rfl rfl)

theorem noticesKept_startWait (t : Agent) (w : Want) (timeout : Word) :
    NoticesKept s (s.startWait t w timeout) :=
  noticesKept_setAgent s t (.of_same rfl rfl)

theorem noticesKept_setNotice (a : Agent) (n : Notice) : NoticesKept s (s.setNotice a n) :=
  noticesKept_setAgent s a (.of_added rfl rfl)

theorem noticesKept_endWait (a : Agent) (r : Result) : NoticesKept s (s.endWait a r) :=
  noticesKept_setAgent s a (.of_added rfl rfl)

/-! ### Shared operations -/

theorem noticesKept_recordViolation (t : Agent) (e : ViolationEvent) :
    NoticesKept s (s.recordViolation t e) := by
  cases capture : s.sup.capture with
  | none =>
    rw [recordViolation_empty s t e capture]
    exact .after (noticesKept_setNotice _ _ _) (.of_agents rfl)
  | some c =>
    rw [recordViolation_full s t e capture]
    exact .of_agents rfl

theorem noticesKept_deny (t : Agent) (c : AgentCmd) (object : Nat) :
    NoticesKept s (s.deny t c object) :=
  .after (noticesKept_recordViolation _ t _) (noticesKept_refuse s t _)

theorem noticesKept_supResult (c : ResCode) : NoticesKept s (s.supResult c) :=
  .of_agents rfl

theorem noticesKept_reckonStoreEmpty (before : State) :
    NoticesKept s (reckonStoreEmpty before s) :=
  .ite (fun _ => noticesKept_setNotice s _ _) fun _ => .of_agents rfl

theorem noticesKept_endJob : NoticesKept s s.endJob :=
  .after (noticesKept_setNotice _ _ _) (.of_agents rfl)

theorem noticesKept_leaveWaitList (a : Agent) : NoticesKept s (s.leaveWaitList a) :=
  .of_agents (leaveWaitList_frame s a).1

/-- The context as it was, but out of its wait and its wait list. -/
theorem noticesKept_leave_setAgent (a : Agent) {c : AgentCtx} (kept : (s.agent a).NoticesKept c) :
    NoticesKept s ((s.leaveWaitList a).setAgent a c) := by
  have same : (s.leaveWaitList a).agent a = s.agent a :=
    congrArg (·.get a) (leaveWaitList_frame s a).1
  exact .after (noticesKept_setAgent _ a (same ▸ kept)) (noticesKept_leaveWaitList s a)

theorem noticesKept_passLock (l : LockId) (lost : Bool) : NoticesKept s (passLock s l lost) := by
  unfold passLock
  split
  · exact .of_agents rfl
  · exact .after (noticesKept_endWait _ _ _) (.of_agents rfl)

/-! ### The Lock Table's commands -/

theorem noticesKept_acquireNested (t : Agent) (l : LockId) (h : Hold) :
    NoticesKept s (acquireNested s t l h) :=
  .ite (fun _ => noticesKept_refuse s t _) fun _ => .after (noticesKept_done _ t _) (.of_agents rfl)

theorem noticesKept_acquireWait (t : Agent) (l : LockId) (h : Hold) :
    NoticesKept s (acquireWait s t l h) :=
  .ite (fun _ => noticesKept_refuse s t _) fun _ =>
    .ite (fun _ => noticesKept_refuse s t _) fun _ =>
      .after (noticesKept_startWait _ t _ _) (.of_agents rfl)

theorem noticesKept_acquire (t : Agent) (l : LockId) : NoticesKept s (acquire s t l) := by
  unfold acquire
  split
  · exact noticesKept_refuse s t _
  · refine .ite (fun _ => noticesKept_deny s t _ _) fun _ => ?_
    split
    · exact .after (noticesKept_setResult _ t _) (.of_agents rfl)
    · refine .ite (fun _ => noticesKept_acquireNested s t l _) fun _ => ?_
      split
      · exact noticesKept_refuse s t _
      · exact noticesKept_acquireWait s t l _

theorem noticesKept_release (t : Agent) (l : LockId) : NoticesKept s (release s t l) := by
  unfold release
  split
  · exact noticesKept_refuse s t _
  · exact .ite (fun _ => noticesKept_refuse s t _) fun _ =>
      .ite (fun _ => .after (noticesKept_done _ t _) (.of_agents rfl)) fun _ =>
        .after (noticesKept_done _ t _) (noticesKept_passLock s l false)

theorem noticesKept_renew (t : Agent) (l : LockId) : NoticesKept s (renew s t l) := by
  unfold renew
  split
  · exact noticesKept_refuse s t _
  · exact .ite (fun _ => noticesKept_refuse s t _) fun _ =>
      .after (noticesKept_done _ t _) (.of_agents rfl)

theorem noticesKept_lockConfig (l : LockId) : NoticesKept s (lockConfig s l) :=
  .ite (fun _ => .of_agents rfl) fun _ => .of_agents rfl

/-! ### Messages -/

theorem noticesKept_handOff (q : QueueId) (m : Message) (r : Receiver) :
    NoticesKept s (s.handOff q m r) :=
  .after (noticesKept_endWait _ r.agent _)
    (.after (noticesKept_deliver _ r.agent _) (.of_agents rfl))

/-- An admission adds the WATCH kinds of the queue, or none. -/
theorem noticesKept_admitMessage (q : QueueId) (m : Message) :
    NoticesKept s (s.admitMessage q m) := fun a => by
  rw [admit_agent]
  split
  · exact .of_added rfl rfl
  · exact .of_same rfl rfl

theorem noticesKept_completeSender (a : Agent) (seq : Word) :
    NoticesKept s (s.completeSender a seq) :=
  .after (noticesKept_endWait _ a _) (.of_agents rfl)

theorem noticesKept_serveSender (a : Agent) : NoticesKept s (serveSender s a) := by
  unfold serveSender
  split
  · split
    · split
      · exact .after (noticesKept_completeSender _ a _) (noticesKept_handOff s _ _ _)
      · exact .ite
          (fun _ => .after (noticesKept_completeSender _ a _) (noticesKept_admitMessage s _ _))
          fun _ => .of_agents rfl
    · exact .of_agents rfl
  · exact .of_agents rfl

theorem noticesKept_admissionPass : NoticesKept s (admissionPass s) :=
  .foldl noticesKept_serveSender _ s

theorem noticesKept_sendBlocked (t : Agent) (q : QueueId) (mode : Mode) (m : Message) :
    NoticesKept s (sendBlocked s t q mode m) := by
  unfold sendBlocked
  split
  · exact noticesKept_refuse s t _
  · exact .ite (fun _ => noticesKept_refuse s t _) fun _ =>
      .after (noticesKept_startWait _ t _ _) (.of_agents rfl)

theorem noticesKept_sendOffer (t : Agent) (q : QueueId) (mode : Mode) (m : Message) :
    NoticesKept s (sendOffer s t q mode m) := by
  unfold sendOffer
  split
  · exact .after (noticesKept_done _ t _) (noticesKept_handOff s q m _)
  · exact .ite (fun _ => .after (noticesKept_done _ t _) (noticesKept_admitMessage s q m)) fun _ =>
      noticesKept_sendBlocked s t q mode m

theorem noticesKept_send (t : Agent) (q : QueueId) : NoticesKept s (send s t q) := by
  unfold send
  split
  · exact noticesKept_refuse s t _
  · refine .ite (fun _ => noticesKept_refuse s t _) fun _ =>
      .ite (fun _ => noticesKept_deny s t _ _) fun _ => ?_
    split
    · exact noticesKept_refuse s t _
    · exact noticesKept_refuse s t _
    · exact .after (noticesKept_reckonStoreEmpty _ s) (noticesKept_sendOffer s t q _ _)

theorem noticesKept_takeMessage (t : Agent) (q : QueueId) (p : Stored → Bool) (d : Stored) :
    NoticesKept s (takeMessage s t q p d) :=
  .after (noticesKept_setResult _ t _) (.after (noticesKept_deliver _ t d) (.of_agents rfl))

theorem noticesKept_takeFromSender (t : Agent) (q : QueueId) (a : Agent) (m : Message) :
    NoticesKept s (takeFromSender s t q a m) :=
  .after (noticesKept_setResult _ t _)
    (.after (noticesKept_deliver _ t _)
      (.after (noticesKept_completeSender _ a _) (.of_agents rfl)))

theorem noticesKept_receiveBlocked (t : Agent) (q : QueueId) (mode : Mode) (label mask : Word) :
    NoticesKept s (receiveBlocked s t q mode label mask) := by
  unfold receiveBlocked
  split
  · exact noticesKept_refuse s t _
  · exact .ite (fun _ => noticesKept_refuse s t _) fun _ =>
      .after (noticesKept_startWait _ t _ _) (.of_agents rfl)

theorem noticesKept_receiveSearch (t : Agent) (q : QueueId) (mode : Mode) (label mask : Word) :
    NoticesKept s (receiveSearch s t q mode label mask) := by
  unfold receiveSearch
  split
  · exact .after (noticesKept_admissionPass _) (noticesKept_takeMessage s t q _ _)
  · split
    · exact noticesKept_takeFromSender s t q _ _
    · exact noticesKept_receiveBlocked s t q mode label mask

theorem noticesKept_receive (t : Agent) (q : QueueId) : NoticesKept s (receive s t q) := by
  unfold receive
  split
  · exact noticesKept_refuse s t _
  · refine .ite (fun _ => noticesKept_deny s t _ _) fun _ =>
      .ite (fun _ => noticesKept_deny s t _ _) fun _ => ?_
    split
    · exact noticesKept_refuse s t _
    · exact noticesKept_refuse s t _
    · exact .after (noticesKept_reckonStoreEmpty _ s) (noticesKept_receiveSearch s t q _ _ _)

/-! ### The Queue Table's commands -/

theorem noticesKept_endWaiters (q : QueueId) (c : ResCode) : NoticesKept s (endWaiters s q c) :=
  .after (.foldl (fun s a => noticesKept_endWait s a _) _ _) (.of_agents rfl)

theorem noticesKept_closeOpened (q : QueueId) (lim : Limits) :
    NoticesKept s (closeOpened s q lim) :=
  .ite (fun _ => .after (noticesKept_admissionPass _) (.of_agents rfl)) fun _ => .of_agents rfl

theorem noticesKept_queueOpen (q : QueueId) : NoticesKept s (queueOpen s q) :=
  .ite (fun _ => .of_agents rfl) fun _ => .ite (fun _ => .of_agents rfl) fun _ =>
    .ite (fun _ => .of_agents rfl) fun _ =>
      .after (noticesKept_reckonStoreEmpty _ s) (.of_agents rfl)

theorem noticesKept_queueClose (q : QueueId) : NoticesKept s (queueClose s q) := by
  unfold queueClose
  split
  · exact .of_agents rfl
  · exact .of_agents rfl
  · exact .after (noticesKept_reckonStoreEmpty _ s) (.after (noticesKept_supResult _ _)
      (.after (noticesKept_closeOpened _ q _) (noticesKept_endWaiters s q _)))

theorem noticesKept_queuePurge (q : QueueId) : NoticesKept s (queuePurge s q) := by
  unfold queuePurge
  split
  · exact .of_agents rfl
  · exact .of_agents rfl
  · have ended := noticesKept_endWaiters s q .purging
    exact .ite (fun _ => .after (noticesKept_supResult _ _) ended) fun _ =>
      .after (u := endWaiters s q .purging) (.of_agents rfl) ended

theorem noticesKept_bindQueue (t : Agent) (q : QueueId) : NoticesKept s (bindQueue s t q) := by
  refine .ite (fun _ => noticesKept_deny s t _ _) fun _ => ?_
  split
  · exact noticesKept_refuse s t _
  · exact noticesKept_refuse s t _
  · split
    · exact .ite (fun _ => noticesKept_done s t _) fun _ => noticesKept_refuse s t _
    · exact .ite (fun _ => .after (noticesKept_done _ t _) (.of_agents rfl)) fun _ =>
        noticesKept_refuse s t _

theorem noticesKept_unbindQueue (t : Agent) (q : QueueId) : NoticesKept s (unbindQueue s t q) :=
  .ite (fun _ => .after (noticesKept_done _ t _) (.of_agents rfl)) fun _ => noticesKept_deny s t _ _

theorem noticesKept_setWatch (t : Agent) (k : Fin 4) (x : Option QueueId) :
    NoticesKept s (setWatch s t k x) :=
  .after (noticesKept_done _ t _) (noticesKept_setAgent s t (.of_same rfl rfl))

theorem noticesKept_watchQueue (t : Agent) (q : QueueId) : NoticesKept s (watchQueue s t q) := by
  refine .ite (fun _ => noticesKept_deny s t _ _) fun _ =>
    .ite (fun _ => noticesKept_refuse s t _) fun _ => ?_
  split
  · exact noticesKept_refuse s t _
  · exact noticesKept_setWatch s t _ _

theorem noticesKept_unwatchQueue (t : Agent) (q : QueueId) :
    NoticesKept s (unwatchQueue s t q) := by
  unfold unwatchQueue
  split
  · exact noticesKept_refuse s t _
  · exact noticesKept_setWatch s t _ _

/-! ### The Agent Ports' commands -/

/-- ATTACH of an agent touches no other agent's notices but by a violation that it records. -/
theorem attach_keeps_others {t a : Agent} (other : a ≠ t) :
    (s.agent a).NoticesKept ((attach s t).agent a) := by
  unfold attach
  split
  · split
    · rw [setAgent_agent_ne _ _ _ other]
      exact .of_same rfl rfl
    · exact noticesKept_deny s t _ _ a
  · exact noticesKept_done s t _ a

/-- DETACH keeps the notice set and the enable (R112). -/
theorem noticesKept_detach (t : Agent) : NoticesKept s (detach s t) :=
  .ite (fun _ => noticesKept_refuse s t _) fun _ =>
    .after (noticesKept_done _ t _)
      (.after (noticesKept_setAgent (s.dropBindings t) t (.of_same rfl rfl)) (.of_agents rfl))

theorem noticesKept_cancel (t : Agent) : NoticesKept s (cancel s t) := by
  unfold cancel
  split
  · exact noticesKept_leave_setAgent s t (.of_same rfl rfl)
  · exact noticesKept_refuse s t _

/-! ### The Maintenance Engine -/

theorem noticesKept_acceptRetire (a : Agent) : NoticesKept s (acceptRetire s a) :=
  .after (u := (s.leaveWaitList a).setAgent a (s.agent a).retire) (.of_agents rfl)
    (noticesKept_leave_setAgent s a (.of_same rfl rfl))

theorem noticesKept_retire (a : Agent) : NoticesKept s (retire s a) := by
  have accepted : NoticesKept s ((acceptRetire s a).supResult .done) :=
    .after (noticesKept_supResult _ _) (noticesKept_acceptRetire s a)
  unfold retire
  split
  · exact .of_agents rfl
  · exact .of_agents rfl
  · exact accepted
  · exact accepted

theorem noticesKept_lockSweepStep : NoticesKept s (lockSweepStep s) := by
  unfold lockSweepStep
  split
  · next r c _ =>
    have sweep : NoticesKept s
        (if (s.lock c).hold.any (fun h => h.holder == r) then loseLock s c else s) :=
      .ite (fun _ => noticesKept_passLock s c true) fun _ => .of_agents rfl
    dsimp only
    split <;> exact .after (.of_agents rfl) sweep
  · exact .of_agents rfl

/-- The end of a retirement keeps the notice set and the enable (R140). -/
theorem noticesKept_queueSweepStep : NoticesKept s (queueSweepStep s) := by
  unfold queueSweepStep
  split
  · next r c _ =>
    have sweep : NoticesKept s
        (if (s.queue c).bound = some r then s.setQueue c { s.queue c with bound := none } else s) :=
      .ite (fun _ => .of_agents rfl) fun _ => .of_agents rfl
    dsimp only
    split
    · exact .after (.of_agents rfl) sweep
    · exact .after (noticesKept_endJob _)
        (.after (noticesKept_setAgent _ r (.of_same rfl rfl)) sweep)
  · exact .of_agents rfl

theorem noticesKept_discardHead (q : QueueId) : NoticesKept s (discardHead s q) := by
  unfold discardHead
  split <;> exact .of_agents rfl

theorem noticesKept_endPurge (q : QueueId) (lim : Limits) (closeAfter : Bool) :
    NoticesKept s (endPurge s q lim closeAfter) :=
  .ite (fun _ => .of_agents rfl) fun _ => .of_agents rfl

theorem noticesKept_purgeQueue (q : QueueId) (lim : Limits) (closeAfter : Bool) :
    NoticesKept s (purgeQueue s q lim closeAfter) :=
  .ite
    (fun _ => .after (noticesKept_endJob _) (.after (noticesKept_admissionPass _)
      (.after (noticesKept_endPurge _ q lim closeAfter) (noticesKept_discardHead s q))))
    fun _ => .after (noticesKept_admissionPass _) (noticesKept_discardHead s q)

theorem noticesKept_purgeStep : NoticesKept s (purgeStep s) := by
  unfold purgeStep
  split
  · split
    · exact .after (noticesKept_reckonStoreEmpty _ s) (noticesKept_purgeQueue s _ _ _)
    · exact .of_agents rfl
  · exact .of_agents rfl

/-! ### Ticks and the rise of RESET# -/

theorem noticesKept_tickLock (l : LockId) : NoticesKept s (tickLock s l) := by
  unfold tickLock
  split
  · exact .of_agents rfl
  · split
    · exact .of_agents rfl
    · exact .ite (fun _ => .of_agents rfl) fun _ =>
        .after (noticesKept_setNotice _ _ _) (noticesKept_passLock s l true)

theorem noticesKept_lockTableTick : NoticesKept s (lockTableTick s) :=
  .ite (fun _ => .of_agents rfl) fun _ => .after (.foldl noticesKept_tickLock _ _) (.of_agents rfl)

theorem noticesKept_tickPort (a : Agent) : NoticesKept s (tickPort s a) := by
  unfold tickPort
  split
  · split
    · exact .of_agents rfl
    · exact .ite (fun _ => noticesKept_setAgent s a (.of_same rfl rfl)) fun _ =>
        .after (noticesKept_endWait _ a _) (noticesKept_leaveWaitList s a)
  · exact .of_agents rfl

theorem noticesKept_agentPortsTick : NoticesKept s (agentPortsTick s) :=
  .ite (fun _ => .of_agents rfl) fun _ => .after (.foldl noticesKept_tickPort _ _) (.of_agents rfl)

theorem noticesKept_timeEvent (f : TimeBase → TimeBase) : NoticesKept s (timeEvent s f) :=
  .of_agents (timeEvent_frame f).1

theorem noticesKept_releaseReset (straps : Agent) : NoticesKept s (releaseReset s straps) :=
  .of_agents (releaseReset_frame straps).2

/-! ### The commands as the bus brings them -/

/-- Each command of an agent but ATTACH. -/
theorem noticesKept_command (t : Agent) {c : AgentCmd} (other : c ≠ .attach) :
    NoticesKept s (effectOf (c.command t) s) := by
  have refused := noticesKept_refuse s t
  rw [effectOf_command]
  refine acceptCommand_induct refused ?_
  cases c with
  | attach => exact absurd rfl other
  | detach => exact noticesKept_detach s t
  | cancel => exact noticesKept_cancel s t
  | acquire => exact withLock_induct (refused _) (noticesKept_acquire s t)
  | release => exact withLock_induct (refused _) (noticesKept_release s t)
  | renew => exact withLock_induct (refused _) (noticesKept_renew s t)
  | send => exact withQueue_induct (refused _) (noticesKept_send s t)
  | receive => exact withQueue_induct (refused _) (noticesKept_receive s t)
  | bind => exact withQueue_induct (refused _) (noticesKept_bindQueue s t)
  | unbind => exact withQueue_induct (refused _) (noticesKept_unbindQueue s t)
  | watch => exact withQueue_induct (refused _) (noticesKept_watchQueue s t)
  | unwatch => exact withQueue_induct (refused _) (noticesKept_unwatchQueue s t)

/-- Each command of the supervisor but CLEAR. -/
theorem noticesKept_supervisorCommand {c : SupCmd} (other : c ≠ .clear) :
    NoticesKept s (effectOf c.command s) := by
  have refused := noticesKept_supResult s .badObject
  cases c with
  | lockConfig => exact withSupObject_induct refused (noticesKept_lockConfig s)
  | queueOpen => exact withSupObject_induct refused (noticesKept_queueOpen s)
  | queueClose => exact withSupObject_induct refused (noticesKept_queueClose s)
  | queuePurge => exact withSupObject_induct refused (noticesKept_queuePurge s)
  | retire => exact withSupObject_induct refused (noticesKept_retire s)
  | quiesce | resume | ackViolation => exact .of_agents rfl
  | clear => exact absurd rfl other

theorem noticesKept_writeCmd_unknown (t : Agent) {code : Word}
    (unknown : AgentCmd.ofCode code = none) : NoticesKept s (writeCmd s t code) := by
  rw [writeCmd_unknown unknown]
  exact acceptCommand_induct (noticesKept_refuse s t) (.of_agents rfl)

theorem noticesKept_writeAgentReg (t : Agent) {r : AgentReg} (v : Word) (notCmd : r ≠ .cmd)
    (notNen : r ≠ .nen) : NoticesKept s (writeAgentReg s t r v) := by
  cases r with
  | cmd => exact absurd rfl notCmd
  | nen => exact absurd rfl notNen
  | operand | shdr | slabel | stg => exact noticesKept_setAgent s t (.of_same rfl rfl)
  | _ => exact .of_agents rfl

theorem noticesKept_writeSupReg {r : SupReg} (v : Word) (notScmd : r ≠ .scmd) :
    NoticesKept s (writeSupReg s r v) := by
  cases r with
  | scmd => exact absurd rfl notScmd
  | _ => exact .of_agents rfl

/-- A REGISTER_WRITE of the table does not write NEN. -/
theorem ne_nen_of_plainWriteOffset : ∀ off : Offset, plainWriteOffset off = true →
    AgentReg.ofOffset off ≠ .nen := by
  decide +kernel

theorem noticesKept_plainWrite (t : Agent) {off : Offset} (v : Word)
    (plain : plainWriteOffset off = true) : NoticesKept s (busWrite s t off v) := by
  obtain ⟨notCmd, notScmd⟩ := ne_cmd_of_plainWriteOffset plain
  have notNen := ne_nen_of_plainWriteOffset off plain
  exact .ite
    (fun _ => .ite (fun _ => noticesKept_writeSupReg s v notScmd) fun _ =>
      noticesKept_recordViolation s t _)
    fun _ => noticesKept_writeAgentReg s t v notCmd notNen

theorem noticesKept_deniedWrite {t : Agent} {off : Offset} (v : Word)
    (page : Offset.supervisorPage off = true) (other : t ≠ s.sup.tag) :
    NoticesKept s (busWrite s t off v) := by
  rw [busWrite, if_pos page, if_neg other]
  exact noticesKept_recordViolation s t _

/-! ### Every command -/

/-- The commands that empty a notice set or write an enable: ATTACH, the read of NOTE, the write of NEN, CLEAR and RESET. -/
def writesNotices : Instr → Bool
  | .attach _ | .noteRead _ | .nenWrite _ _ | .clear | .reset => true
  | _ => false

theorem noticesKept_effectOf {c : Instr} (wellFormed : c.wellFormed = true)
    (plain : writesNotices c = false)
    (own : ∀ off v, c ≠ .supervisorPageWriteDenied s.sup.tag off v) :
    NoticesKept s (effectOf c s) := by
  cases c with
  | attach | noteRead | nenWrite | clear | reset => cases plain
  | detach t => exact noticesKept_command s t (c := .detach) nofun
  | cancel t => exact noticesKept_command s t (c := .cancel) nofun
  | acquire t => exact noticesKept_command s t (c := .acquire) nofun
  | release t => exact noticesKept_command s t (c := .release) nofun
  | renew t => exact noticesKept_command s t (c := .renew) nofun
  | send t => exact noticesKept_command s t (c := .send) nofun
  | receive t => exact noticesKept_command s t (c := .receive) nofun
  | bind t => exact noticesKept_command s t (c := .bind) nofun
  | unbind t => exact noticesKept_command s t (c := .unbind) nofun
  | watch t => exact noticesKept_command s t (c := .watch) nofun
  | unwatch t => exact noticesKept_command s t (c := .unwatch) nofun
  | lockConfig => exact noticesKept_supervisorCommand s (c := .lockConfig) nofun
  | queueOpen => exact noticesKept_supervisorCommand s (c := .queueOpen) nofun
  | queueClose => exact noticesKept_supervisorCommand s (c := .queueClose) nofun
  | queuePurge => exact noticesKept_supervisorCommand s (c := .queuePurge) nofun
  | retire => exact noticesKept_supervisorCommand s (c := .retire) nofun
  | quiesce | resume | ackViolation | tickdivWrite | freezeAssert | freezeRelease =>
    exact .of_agents rfl
  | tickloRead t | tickhiRead t => exact noticesKept_setAgent s t (.of_same rfl rfl)
  | supervisorPageWriteDenied t off v =>
    have other : t ≠ s.sup.tag := fun self => own off v (self ▸ rfl)
    exact noticesKept_deniedWrite s v (Bool.and_eq_true_iff.mp wellFormed).2 other
  | registerWrite t off v => exact noticesKept_plainWrite s t v wellFormed
  | unknownAgentCommandCode t code =>
    exact noticesKept_writeCmd_unknown s t (Option.isNone_iff_eq_none.mp wellFormed)
  | unknownSupervisorCommandCode code =>
    rw [effectOf, writeScmd_unknown (Option.isNone_iff_eq_none.mp wellFormed)]
    exact .of_agents rfl
  | resetRelease straps => exact noticesKept_releaseReset s straps
  | tick | refclkPeriodCounted => exact noticesKept_timeEvent s _
  | leaseCountdown => exact noticesKept_lockTableTick s
  | leaseExpiry l => exact .ite (fun _ => noticesKept_lockTableTick s) fun _ => .of_agents rfl
  | deadlineCountdown => exact noticesKept_agentPortsTick s
  | deadlineExpiry a => exact .ite (fun _ => noticesKept_agentPortsTick s) fun _ => .of_agents rfl
  | lockSweepStep => exact noticesKept_lockSweepStep s
  | queueSweepStep => exact noticesKept_queueSweepStep s
  | purgeStep => exact noticesKept_purgeStep s

variable {s} {s' : State} {c : Instr}

/-- A context after a command is as it was, or as the command's effect leaves it. -/
theorem exec_agent (run : exec c s = .next s') (a : Agent) :
    s'.agent a = s.agent a ∨ s'.agent a = (effectOf c s).agent a := by
  cases exec_ending run with
  | dropped | unanswered => exact .inl rfl
  | taken | answered => exact .inr rfl

/-! ### Reads and writes of NOTE -/

theorem exec_noteRead_running (running : Running s) (t : Agent) :
    exec (.noteRead t) s =
      .next
        (State.answerRead (s.setAgent t { s.agent t with notices := 0 }) (s.agent t).notices) := by
  rw [exec_noteRead, readCycle_running s _ _ running, clearNotices]

theorem exec_note_write (running : Running s) (t : Agent) (v : Word) :
    exec (.registerWrite t 0x12 v) s = .next s.answerWrite := by
  rw [exec_write_agentReg (r := .note) running ⟨rfl, rfl⟩, writeAgentReg_readOnly rfl]

/-- The kinds of `a` stay but for its own read of NOTE, its own ATTACH, CLEAR and RESET. -/
theorem kinds_of_effectOf {a : Agent} (wellFormed : c.wellFormed = true)
    (noteRead : c ≠ .noteRead a) (attach : c ≠ .attach a) (clear : c ≠ .clear) (reset : c ≠ .reset)
    (own : ∀ off v, c ≠ .supervisorPageWriteDenied s.sup.tag off v) {n : Notice}
    (held : holdsNotice (s.agent a).notices n = true) :
    holdsNotice ((effectOf c s).agent a).notices n = true := by
  cases c with
  | clear => exact absurd rfl clear
  | reset => exact absurd rfl reset
  | noteRead t =>
    have other : a ≠ t := fun self => noteRead (self ▸ rfl)
    rwa [effectOf, clearNotices, setAgent_agent_ne _ _ _ other]
  | attach t =>
    have other : a ≠ t := fun self => attach (self ▸ rfl)
    have kept : (s.agent a).NoticesKept ((effectOf (.attach t) s).agent a) :=
      acceptCommand_induct (P := fun u => (s.agent a).NoticesKept (u.agent a))
        (fun code => noticesKept_refuse s t code a) (attach_keeps_others s other)
    exact kept.kinds n held
  | nenWrite t v =>
    rw [effectOf, writeEnable, setAgent_agent]
    split
    · next self => exact self ▸ held
    · exact held
  | _ => exact (noticesKept_effectOf s wellFormed rfl own a).kinds n held

/-- Settles O21: every other event only adds to a notice set. -/
theorem noticesReadAndKept : Obligations.NoticesReadAndKept := by
  refine ⟨fun t v s running => ⟨exec_noteRead_running running t, exec_note_write running t v⟩,
    fun c a n s s' run wellFormed noteRead attach clear reset own held => ?_⟩
  rcases exec_agent run a with same | taken
  · rwa [same]
  · rw [taken]
    exact kinds_of_effectOf wellFormed noteRead attach clear reset own held

/-! ### The enable -/

theorem exec_nenWrite_running (running : Running s) (t : Agent) (v : Word) :
    exec (.nenWrite t v) s =
      .next (State.answerWrite (s.setAgent t { s.agent t with enable := v &&& 0x073F })) := by
  rw [exec_nenWrite, writeCycle_running s _ running, writeEnable, noticeKinds]

/-- CLEAR too keeps the enable (R121). -/
theorem supervisorCommand_enable (c : SupCmd) (s : State) (a : Agent) :
    ((effectOf c.command s).agent a).enable = (s.agent a).enable := by
  by_cases clear : c = .clear
  · subst clear
    rw [SupCmd.command, effectOf, clearPart_agent, AgentCtx.clear]
  · exact (noticesKept_supervisorCommand s clear a).enable

theorem writeSupReg_enable (r : SupReg) (v : Word) (a : Agent) :
    ((writeSupReg s r v).agent a).enable = (s.agent a).enable := by
  by_cases scmd : r = .scmd
  · subst scmd
    rw [writeSupReg]
    cases known : SupCmd.ofCode v with
    | none => rw [writeScmd_unknown known]; rfl
    | some c => rw [writeScmd_known known, supervisorCommand_enable]
  · exact (noticesKept_writeSupReg s v scmd a).enable

/-- A write to the supervisor page changes no enable, whatever its tag. -/
theorem busWrite_supervisorPage_enable {off : Offset} (page : Offset.supervisorPage off = true)
    (t : Agent) (v : Word) (a : Agent) :
    ((busWrite s t off v).agent a).enable = (s.agent a).enable := by
  by_cases own : t = s.sup.tag
  · rw [own, busWrite_supervisorPage page, writeSupReg_enable]
  · exact (noticesKept_deniedWrite s v page own a).enable

/-- A command that is no cycle on an agent page, RESET apart, changes no enable. -/
theorem effectOf_enable (wellFormed : c.wellFormed = true) (reset : c ≠ .reset)
    (page : c.agentPageTag = none) (a : Agent) :
    ((effectOf c s).agent a).enable = (s.agent a).enable := by
  cases c with
  | reset => exact absurd rfl reset
  | attach | noteRead | nenWrite => cases page
  | clear => exact supervisorCommand_enable .clear s a
  | supervisorPageWriteDenied t off v =>
    exact busWrite_supervisorPage_enable (Bool.and_eq_true_iff.mp wellFormed).2 t v a
  | _ => exact (noticesKept_effectOf s wellFormed rfl nofun a).enable

/-- Settles O22: a cycle of another tag on the agent page keeps the enable, and so does all else but RESET. -/
theorem noticeEnableIsItsOwners : Obligations.NoticeEnableIsItsOwners := by
  refine ⟨fun t v s running => exec_nenWrite_running running t v,
    fun c a s s' run wellFormed reset others => ?_⟩
  rcases exec_agent run a with same | taken
  · rw [same]
  · rw [taken]
    cases page : c.agentPageTag with
    | none => exact effectOf_enable wellFormed reset page a
    | some t =>
      have other : a ≠ t := fun self => others (self ▸ page)
      exact (othersKept_effectOf page a other).enable

/-! ### Attention -/

/-- A word is not 0 exactly when one of its bits is set. -/
theorem ne_zero_iff_getLsbD (w : Word) : w ≠ 0 ↔ ∃ i < 16, w.getLsbD i = true := by
  constructor
  · intro nonzero
    by_contra clear
    refine nonzero (BitVec.eq_of_getLsbD_eq fun i low => ?_)
    have bitClear : w.getLsbD i = false := Bool.eq_false_iff.mpr fun bit => clear ⟨i, low, bit⟩
    exact bitClear.trans BitVec.getLsbD_zero.symm
  · rintro ⟨i, -, bit⟩ rfl
    simp at bit

/-- Settles O23: the shared kinds are the bits of the set and the enable together. -/
theorem attentionIsSharedKind : Obligations.AttentionIsSharedKind := by
  intro a s
  simp only [State.attention, bne_iff_ne, ne_zero_iff_getLsbD, BitVec.getLsbD_and,
    Bool.and_eq_true]

end Sys2Proof.Machine

/-! The Maintenance Engine, command by command (chapter 8): RETIRE, the two sweeps and the purge steps, and the statements about them. -/

namespace Sys2Proof.Machine

variable {s : State}

/-! ### RETIRE (R134, R135) -/

theorem exec_retire_running (running : Running s) :
    exec .retire s = .next (withSupObject s 16 (retire s)).answerWrite :=
  (exec_retire s).trans (writeCycle_running s _ running)

section Retire

variable {a : Agent}

theorem retire_of_detached (port : (s.agent a).port = .detached) :
    retire s a = s.supResult .notAttached := by
  simp only [retire, port]

theorem retire_of_retiring (port : (s.agent a).port = .retiring) :
    retire s a = s.supResult .retiring := by
  simp only [retire, port]

/-- RETIRE is accepted from both of the states of an attached agent (R134). -/
theorem retire_of_active
    (active : (s.agent a).port = .attached ∨ (s.agent a).port.isWaiting = true) :
    retire s a = (acceptRetire s a).supResult .done := by
  unfold retire
  split
  · next port => simp [port, Port.isWaiting] at active
  · next port => simp [port, Port.isWaiting] at active
  · rfl
  · rfl

theorem AgentCtx.retire_eq (c : AgentCtx) :
    c.retire = { c with
      port := .retiring, watch := .all 4 none
      res := if c.port.isWaiting then .plain .retired else c.res } := by
  unfold AgentCtx.retire
  cases c.port <;> rfl

/-- A job joins the tail, and the engine starts on it when it found the list empty (R133). -/
theorem addJob_eq (s : State) (j : Job) :
    s.addJob j = { s with engine :=
      { jobs := s.engine.jobs ++ [j]
        state := if s.engine.jobs = [] then j.firstState else s.engine.state } } := by
  simp only [State.addJob, List.isEmpty_iff]

theorem acceptRetire_eq (wait : WaitLaw s) :
    acceptRetire s a =
      { (s.withoutWaiter a).setAgent a
          { s.agent a with
            port := .retiring, watch := .all 4 none
            res := if (s.agent a).port.isWaiting then .plain .retired else (s.agent a).res } with
        engine :=
          { jobs := s.engine.jobs ++ [.retire a]
            state := if s.engine.jobs = [] then .retireLocks a 0 else s.engine.state } } := by
  rw [acceptRetire, leaveWaitList_eq_withoutWaiter s a wait, AgentCtx.retire_eq, addJob_eq]
  rfl

end Retire

/-- Settles O49: the number is judged first, then the state of the agent. -/
theorem retireStartsRetirement : Obligations.RetireStartsRetirement := by
  intro s running wait
  rw [exec_retire_running running]
  refine ⟨fun above => ?_, fun a named => ?_⟩
  · rw [withSupObject_out_of_range s _ above]
  · rw [withSupObject_named s _ named]
    refine ⟨fun port => ?_, fun port => ?_, fun active => ?_⟩
    · rw [retire_of_detached port]
    · rw [retire_of_retiring port]
    · rw [retire_of_active active, acceptRetire_eq wait]

/-! ### The cursor of a sweep -/

theorem nextCursor_of_succ {n : Nat} {c c' : Fin n} (next : c'.val = c.val + 1) :
    nextCursor c = some c' := by
  rw [nextCursor, dif_pos (next ▸ c'.isLt)]
  exact congrArg some (Fin.ext next.symm)

/-! ### The lock sweep (R136) -/

theorem exec_lockSweepStep_running (running : Running s) :
    exec .lockSweepStep s = .next (lockSweepStep s) :=
  (exec_lockSweepStep s).trans (blockEvent_running s _ running)

section LockSweep

variable {r : Agent} {c : LockId} (state : s.engine.state = .retireLocks r c)
include state

/-- The lock sweep takes the next lock, and after the last one it gives way to the queue sweep (R136). -/
theorem lockSweepStep_eq :
    lockSweepStep s =
      (if (s.lock c).hold.any (fun h => h.holder == r) then loseLock s c else s).setEngine
        (afterLock r c) := by
  simp only [lockSweepStep, state, nextCursor, afterLock]
  by_cases more : c.val + 1 < 64
  · simp only [dif_pos more]
  · simp only [dif_neg more]

theorem lockSweepStep_of_not_holder (other : ∀ h ∈ (s.lock c).hold, h.holder ≠ r) :
    lockSweepStep s = s.setEngine (afterLock r c) := by
  have notHeld : ¬ (s.lock c).hold.any (fun h => h.holder == r) = true := by
    simpa [Option.any_eq_true] using other
  rw [lockSweepStep_eq state, if_neg notHeld]

theorem lockSweepStep_of_holder {h : Hold} (held : (s.lock c).hold = some h)
    (own : h.holder = r) : lockSweepStep s = (loseLock s c).setEngine (afterLock r c) := by
  rw [lockSweepStep_eq state, held, if_pos (by simpa using own)]

end LockSweep

theorem loseLock_nobody {l : LockId} (nobody : (s.lock l).waiters = []) :
    loseLock s l = s.setLock l (s.lock l).lost := by
  rw [loseLock, passLock_nobody s l true nobody, Lock.lost_nobody nobody]

theorem loseLock_head {l : LockId} {w : Agent} {rest : List Agent}
    (queue : (s.lock l).waiters = w :: rest) :
    loseLock s l = (s.setLock l (s.lock l).lost).endWait w (.granted true) := by
  rw [loseLock, passLock_head s l true queue, Lock.lost_head queue]

/-- Settles O50: the step is the loss of a lock that the agent holds, and then the move of the cursor. -/
theorem lockSweepStepTakesLock : Obligations.LockSweepStepTakesLock := by
  intro r c s running state
  rw [exec_lockSweepStep_running running]
  refine ⟨fun other => ?_, fun h held own => ⟨fun nobody => ?_, fun w rest queue => ?_⟩⟩
  · rw [lockSweepStep_of_not_holder state other]
    rfl
  · rw [lockSweepStep_of_holder state held own, loseLock_nobody nobody]
    rfl
  · rw [lockSweepStep_of_holder state held own, loseLock_head queue]
    rfl

/-! ### The end of a job (R133) -/

/-- JOB_DONE is the one change that the end of a job makes in a context (R126). -/
theorem endJob_agent (s : State) (a : Agent) :
    s.endJob.agent a =
      { s.agent a with
        notices := (s.agent a).notices ||| (if a = s.sup.tag then Notice.jobDone.bit else 0) } := by
  rw [State.endJob, setNotice_eq, setAgent_agent]
  split
  · next self => rw [self]; rfl
  · have kept : (s.agent a).notices ||| 0 = (s.agent a).notices := BitVec.or_zero
    rw [kept]
    rfl

theorem endJob_engine {s : State} {j : Job} {jobs : List Job} (list : s.engine.jobs = j :: jobs) :
    s.endJob.engine = { jobs := jobs, state := engineStart jobs } := by
  change ({ jobs := s.engine.jobs.tail, state := engineStart s.engine.jobs.tail } : Engine) = _
  rw [list]
  rfl

/-! ### The queue sweep (R138, R140) -/

theorem exec_queueSweepStep_running (running : Running s) :
    exec .queueSweepStep s = .next (queueSweepStep s) :=
  (exec_queueSweepStep s).trans (blockEvent_running s _ running)

/-- The state after the queue sweep's own work at queue `c`: a binding of agent `r` is dropped there (R138). -/
def State.sweptQueue (s : State) (r : Agent) (c : QueueId) : State :=
  s.setQueue c { s.queue c with
    bound := if (s.queue c).bound = some r then none else (s.queue c).bound }

theorem sweptQueue_eq (s : State) (r : Agent) (c : QueueId) :
    s.sweptQueue r c =
      if (s.queue c).bound = some r then s.setQueue c { s.queue c with bound := none } else s := by
  unfold State.sweptQueue
  split
  · rfl
  · exact setQueue_get_self s c

section QueueSweep

variable {r : Agent} {c : QueueId} (state : s.engine.state = .retireQueues r c)
include state

theorem queueSweepStep_below {c' : QueueId} (next : c'.val = c.val + 1) :
    queueSweepStep s = (s.sweptQueue r c).setEngine (.retireQueues r c') := by
  simp only [queueSweepStep, state, nextCursor_of_succ next, sweptQueue_eq]

theorem queueSweepStep_last (last : nextCursor c = none) :
    queueSweepStep s = endRetirement (s.sweptQueue r c) r := by
  simp only [queueSweepStep, state, last, sweptQueue_eq]

end QueueSweep

/-- The end of a retirement detaches its agent, and gives the supervisor JOB_DONE (R140). -/
theorem endRetirement_agent (s : State) (r a : Agent) :
    (endRetirement s r).agent a =
      { (if a = r then (s.agent r).detach else s.agent a) with
        notices := (s.agent a).notices ||| (if a = s.sup.tag then Notice.jobDone.bit else 0) } := by
  rw [endRetirement, endJob_agent, setAgent_agent, setAgent_sup]
  split
  · next self => rw [self]; rfl
  · rfl

theorem endRetirement_queue (s : State) (r : Agent) (q : QueueId) :
    (endRetirement s r).queue q = s.queue q := rfl

/-- Settles O51: the last queue has no next one, so its step is the end of the retirement. -/
theorem queueSweepStepsEndRetirement : Obligations.QueueSweepStepsEndRetirement := by
  refine ⟨fun r c c' s running state next => ?_, fun r jobs s running state list => ?_⟩
  · rw [exec_queueSweepStep_running running, queueSweepStep_below state next]
    rfl
  · rw [exec_queueSweepStep_running running, queueSweepStep_last state rfl]
    refine ⟨_, rfl, ?_, fun q other => ?_, ?_, fun a other => ?_, ?_, rfl⟩
    · rw [endRetirement_queue]
      exact setQueue_queue_self s 31 _
    · rw [endRetirement_queue]
      exact setQueue_queue_ne s 31 _ other
    · rw [endRetirement_agent, if_pos rfl]
      rfl
    · rw [endRetirement_agent, if_neg other]
      rfl
    · refine (endJob_engine list).trans ?_
      rcases jobs with _ | ⟨_ | _, _⟩ <;> rfl

/-! ### Purge steps (R142, R143) -/

theorem exec_purgeStep_running (running : Running s) :
    exec .purgeStep s = .next (purgeStep s) :=
  (exec_purgeStep s).trans (blockEvent_running s _ running)

section Purge

variable {q : QueueId} {lim : Limits} {b : Bool}

theorem purgeStep_of_purging (state : s.engine.state = .purge q)
    (purging : (s.queue q).state = .purging lim b) :
    purgeStep s = reckonStoreEmpty s (purgeQueue s q lim b) := by
  simp only [purgeStep, state, purging]

theorem purgeQueue_more {d e : Stored} {rest : List Stored}
    (messages : (s.queue q).messages = d :: e :: rest) :
    purgeQueue s q lim b =
      admissionPass (State.setQueue { s with freeCount := s.freeCount + 1 } q
        { s.queue q with messages := e :: rest }) := by
  simp [purgeQueue, discardHead_cons messages]

/-- The queue whose purge has ended: CLOSED by close-after-purge, OPEN again without it (R143). -/
theorem endPurge_setQueue (s : State) (q : QueueId) (k : Queue) (lim : Limits) (b : Bool) :
    endPurge (s.setQueue q k) q lim b =
      s.setQueue q
        (if b then { k with state := .closed, bound := none } else { k with state := .opened lim }) := by
  cases b <;> simp [endPurge, closeRecord, State.setQueue, State.queue]

theorem purgeQueue_last {d : Stored} (messages : (s.queue q).messages = [d]) :
    purgeQueue s q lim b =
      State.endJob (admissionPass
        (State.setQueue { s with freeCount := s.freeCount + 1 } q
          (if b then { s.queue q with messages := [], state := .closed, bound := none }
            else { s.queue q with messages := [], state := .opened lim }))) := by
  simp [purgeQueue, discardHead_cons messages, endPurge_setQueue]

end Purge

/-- Settles O52: whether a second message stands in the list decides whether the purge ends. -/
theorem purgeStepsEmptyQueue : Obligations.PurgeStepsEmptyQueue := by
  refine ⟨fun q lim b d e rest s running state purging messages => ?_,
    fun q lim b d s running state purging messages => ?_⟩
  · rw [exec_purgeStep_running running, purgeStep_of_purging state purging,
      purgeQueue_more messages]
  · rw [exec_purgeStep_running running, purgeStep_of_purging state purging,
      purgeQueue_last messages]

end Sys2Proof.Machine

/-! The pins and the supervisor's own commands (chapter 9): RESET# and FREEZE, the violation capture, CLEAR, and the statements about them. -/

namespace Sys2Proof.Machine

/-! ### The pins (R146, R163, R164) -/

theorem releaseReset_held {s : State} (x : Agent) (held : s.pins.resetHeld = true) :
    releaseReset s x =
      { s with pins := { s.pins with resetHeld := false }, sup := { s.sup with tag := x } } :=
  if_pos held

theorem releaseReset_running {s : State} (x : Agent) (running : Running s) :
    releaseReset s x = s :=
  if_neg (Bool.eq_false_iff.mp running)

/-- Settles O4: the straps are latched where RESET# is held, and FREEZE is its own level. -/
theorem pinsMoveTheirLevels : Obligations.PinsMoveTheirLevels := by
  refine ⟨fun x s => ⟨fun held => ?_, fun running => ?_⟩, fun s => ⟨?_, ?_⟩⟩
  · rw [exec_resetRelease, releaseReset_held x held]
  · rw [exec_resetRelease, releaseReset_running x running]
  · rw [exec_freezeAssert, setFreeze]
  · rw [exec_freezeRelease, setFreeze]

/-! ### The violation capture (R147, R153, R154) -/

theorem exec_ackViolation_running {s : State} (running : Running s) :
    exec .ackViolation s = .next (ackViolation s).answerWrite := by
  rw [exec_ackViolation, writeCycle_running s _ running]

/-- A write to the supervisor page from a tag that is not the supervisor's is a violation, and nothing else. -/
theorem busWrite_supervisorPage_other {s : State} {t : Agent} {off : Offset}
    (page : Offset.supervisorPage off = true) (other : t ≠ s.sup.tag) (v : Word) :
    busWrite s t off v = s.recordViolation t (.pageWrite (Offset.even off)) := by
  rw [busWrite, if_pos page, if_neg other]

/-- The offsets of the row SUPERVISOR_PAGE_WRITE_DENIED are even and lie in the supervisor page. -/
theorem supervisorPageWriteDenied_wellFormed {t : Agent} {off : Offset} {v : Word} :
    (Instr.supervisorPageWriteDenied t off v).wellFormed = true ↔
      off.getLsbD 0 = false ∧ Offset.supervisorPage off = true := by
  rw [Instr.wellFormed, Bool.and_eq_true, Bool.not_eq_true']

/-- Settles O27: the capture by its two cases, ACK_VIOLATION, and the page write of another tag, recorded with its even offset. -/
theorem violationsAreCaptured : Obligations.ViolationsAreCaptured := by
  refine ⟨fun t e s => ⟨fun empty => ?_, fun c full => ?_⟩, fun s running => ?_,
    fun t off v s running other wellFormed => ⟨?_, ?_⟩⟩
  · rw [recordViolation_empty s t e empty, setNotice_eq]
    rfl
  · exact recordViolation_full s t e full
  · rw [exec_ackViolation_running running, ackViolation, State.supResult]
  · obtain ⟨even, page⟩ := supervisorPageWriteDenied_wellFormed.mp wellFormed
    rw [exec_supervisorPageWriteDenied, writeCycle_running s _ running,
      busWrite_supervisorPage_other page other, Offset.even_of_even even]
  · rw [exec_registerWrite, exec_supervisorPageWriteDenied]

/-! ### CLEAR (R155) -/

/-- CLEAR leaves the store as RESET does. -/
theorem clearPart_unreserved (s : State) : (clearPart s).unreserved = 256 :=
  (unreserved_congr (t := State.reset) rfl rfl).trans reset_unreserved

/-- Settles O32: CLEAR block by block. -/
theorem clearKeepsConfiguration : Obligations.ClearKeepsConfiguration := by
  intro s running
  refine ⟨_, exec_clear_running running, clearPart_lock s, clearPart_queue s, fun a => ?_, rfl,
    clearPart_unreserved s, rfl, rfl, rfl, rfl, rfl, rfl, rfl⟩
  rw [answerWrite_agent, clearPart_agent, AgentCtx.clear]
  exact ⟨rfl, Table.get_all 0, rfl, rfl, rfl, rfl, rfl, Table.get_all none, rfl⟩

end Sys2Proof.Machine

/-! QUIESCE and RESUME, and that no wait starts while quiesce mode is on (R151): ACQUIRE, SEND and RECEIVE alone can make an agent wait, and each of them asks for the mode first. -/

namespace Sys2Proof.Machine

/-! ### Events that start no wait -/

/-- No agent waits after the event that did not wait before it. -/
def NoNewWait (s s' : State) : Prop :=
  ∀ a, s'.waits a = true → s.waits a = true

theorem NoNewWait.of_agents {s s' : State} (same : s'.agents = s.agents) : NoNewWait s s' :=
  fun a waits => by rwa [State.waits, State.agent, same] at waits

theorem NoNewWait.of_ports {s s' : State} (same : ∀ a, (s'.agent a).port = (s.agent a).port) :
    NoNewWait s s' :=
  fun a waits => by rwa [State.waits, same] at waits

/-- The later of two events is given first: it says what the earlier ends in. -/
theorem NoNewWait.after {s u s' : State} (later : NoNewWait u s') (earlier : NoNewWait s u) :
    NoNewWait s s' :=
  fun a waits => earlier a (later a waits)

theorem NoNewWait.foldl {β : Type} {f : State → β → State} (each : ∀ s b, NoNewWait s (f s b))
    (entries : List β) (s : State) : NoNewWait s (entries.foldl f s) := by
  induction entries generalizing s with
  | nil => exact .of_agents rfl
  | cons b rest ih => exact (ih (f s b)).after (each s b)

theorem NoNewWait.ite {s u v : State} {p : Prop} [Decidable p] (taken : p → NoNewWait s u)
    (skipped : ¬ p → NoNewWait s v) : NoNewWait s (if p then u else v) := by
  split
  · next holds => exact taken holds
  · next fails => exact skipped fails

/-- One context changes, and its agent does not wait but if it waited before. -/
theorem NoNewWait.of_setAgent {s u : State} {a : Agent} {c : AgentCtx} (same : u.agents = s.agents)
    (still : c.port.isWaiting = true → s.waits a = true) : NoNewWait s (u.setAgent a c) :=
  fun x waits => by
    rw [State.waits, setAgent_agent] at waits
    split at waits
    · next self => exact self ▸ still waits
    · rwa [State.agent, same] at waits

variable (s : State)

/-! ### Updates of one context -/

theorem noNewWait_setResult (t : Agent) (r : Result) : NoNewWait s (s.setResult t r) :=
  .of_setAgent rfl id

theorem noNewWait_refuse (t : Agent) (c : ResCode) : NoNewWait s (s.refuse t c) :=
  noNewWait_setResult s t _

theorem noNewWait_done (t : Agent) (v : Word) : NoNewWait s (s.done t v) :=
  noNewWait_setResult s t _

theorem noNewWait_deliver (a : Agent) (d : Stored) : NoNewWait s (s.deliver a d) :=
  .of_setAgent rfl id

theorem noNewWait_setNotice (a : Agent) (n : Notice) : NoNewWait s (s.setNotice a n) :=
  .of_setAgent rfl id

theorem noNewWait_endWait (a : Agent) (r : Result) : NoNewWait s (s.endWait a r) :=
  .of_setAgent rfl nofun

/-! ### Shared operations -/

theorem noNewWait_recordViolation (t : Agent) (e : ViolationEvent) :
    NoNewWait s (s.recordViolation t e) := by
  cases capture : s.sup.capture with
  | none =>
    rw [recordViolation_empty s t e capture]
    exact .after (noNewWait_setNotice _ _ _) (.of_agents rfl)
  | some c =>
    rw [recordViolation_full s t e capture]
    exact .of_agents rfl

theorem noNewWait_deny (t : Agent) (c : AgentCmd) (object : Nat) :
    NoNewWait s (s.deny t c object) :=
  .after (noNewWait_recordViolation _ t _) (noNewWait_refuse s t _)

theorem noNewWait_supResult (c : ResCode) : NoNewWait s (s.supResult c) :=
  .of_agents rfl

theorem noNewWait_reckonStoreEmpty (before : State) : NoNewWait s (reckonStoreEmpty before s) :=
  .of_ports (reckonStoreEmpty_port before s)

theorem noNewWait_endJob : NoNewWait s s.endJob :=
  .of_ports (endJob_port s)

/-- An agent leaves its wait list, and the context that it gets does not wait. -/
theorem noNewWait_leave_setAgent (a : Agent) {c : AgentCtx} (idle : c.port.isWaiting = false) :
    NoNewWait s ((s.leaveWaitList a).setAgent a c) := by
  obtain ⟨agents, -⟩ := leaveWaitList_frame s a
  exact .of_setAgent agents fun waits => by rw [idle] at waits; cases waits

theorem noNewWait_passLock (l : LockId) (lost : Bool) : NoNewWait s (passLock s l lost) := by
  unfold passLock
  split
  · exact .of_agents rfl
  · exact .after (noNewWait_endWait _ _ _) (.of_agents rfl)

/-! ### The Lock Table's commands other than ACQUIRE -/

theorem noNewWait_release (t : Agent) (l : LockId) : NoNewWait s (release s t l) := by
  unfold release
  split
  · exact noNewWait_refuse s t _
  · exact .ite (fun _ => noNewWait_refuse s t _) fun _ =>
      .ite (fun _ => .after (noNewWait_done _ t _) (.of_agents rfl)) fun _ =>
        .after (noNewWait_done _ t _) (noNewWait_passLock s l false)

theorem noNewWait_renew (t : Agent) (l : LockId) : NoNewWait s (renew s t l) := by
  unfold renew
  split
  · exact noNewWait_refuse s t _
  · exact .ite (fun _ => noNewWait_refuse s t _) fun _ =>
      .after (noNewWait_done _ t _) (.of_agents rfl)

theorem noNewWait_lockConfig (l : LockId) : NoNewWait s (lockConfig s l) :=
  .ite (fun _ => .of_agents rfl) fun _ => .of_agents rfl

/-! ### Hand-off, admission and the admission pass -/

theorem noNewWait_handOff (q : QueueId) (m : Message) (r : Receiver) :
    NoNewWait s (s.handOff q m r) :=
  .after (noNewWait_endWait _ r.agent _)
    (.after (noNewWait_deliver _ r.agent _) (.of_agents rfl))

theorem noNewWait_admitMessage (q : QueueId) (m : Message) : NoNewWait s (s.admitMessage q m) :=
  .of_ports fun a => by rw [admit_agent]

theorem noNewWait_completeSender (a : Agent) (seq : Word) :
    NoNewWait s (s.completeSender a seq) :=
  .after (noNewWait_endWait _ a _) (.of_agents rfl)

theorem noNewWait_serveSender (a : Agent) : NoNewWait s (serveSender s a) := by
  unfold serveSender
  split
  · split
    · split
      · exact .after (noNewWait_completeSender _ a _) (noNewWait_handOff s _ _ _)
      · exact .ite
          (fun _ => .after (noNewWait_completeSender _ a _) (noNewWait_admitMessage s _ _))
          fun _ => .of_agents rfl
    · exact .of_agents rfl
  · exact .of_agents rfl

theorem noNewWait_admissionPass : NoNewWait s (admissionPass s) :=
  .foldl noNewWait_serveSender _ s

theorem noNewWait_takeMessage (t : Agent) (q : QueueId) (p : Stored → Bool) (d : Stored) :
    NoNewWait s (takeMessage s t q p d) :=
  .after (noNewWait_setResult _ t _) (.after (noNewWait_deliver _ t d) (.of_agents rfl))

theorem noNewWait_takeFromSender (t : Agent) (q : QueueId) (a : Agent) (m : Message) :
    NoNewWait s (takeFromSender s t q a m) :=
  .after (noNewWait_setResult _ t _)
    (.after (noNewWait_deliver _ t _)
      (.after (noNewWait_completeSender _ a _) (.of_agents rfl)))

/-! ### The Queue Table's commands -/

theorem noNewWait_endWaiters (q : QueueId) (c : ResCode) : NoNewWait s (endWaiters s q c) :=
  .after (.foldl (fun s a => noNewWait_endWait s a _) _ _) (.of_agents rfl)

theorem noNewWait_closeOpened (q : QueueId) (lim : Limits) : NoNewWait s (closeOpened s q lim) :=
  .ite (fun _ => .after (noNewWait_admissionPass _) (.of_agents rfl)) fun _ => .of_agents rfl

theorem noNewWait_queueClose (q : QueueId) : NoNewWait s (queueClose s q) := by
  unfold queueClose
  split
  · exact .of_agents rfl
  · exact .of_agents rfl
  · exact .after (noNewWait_reckonStoreEmpty _ s) (.after (noNewWait_supResult _ _)
      (.after (noNewWait_closeOpened _ q _) (noNewWait_endWaiters s q _)))

theorem noNewWait_queuePurge (q : QueueId) : NoNewWait s (queuePurge s q) := by
  unfold queuePurge
  split
  · exact .of_agents rfl
  · exact .of_agents rfl
  · have ended := noNewWait_endWaiters s q .purging
    exact .ite (fun _ => .after (noNewWait_supResult _ _) ended) fun _ =>
      .after (u := endWaiters s q .purging) (.of_agents rfl) ended

theorem noNewWait_bindQueue (t : Agent) (q : QueueId) : NoNewWait s (bindQueue s t q) := by
  refine .ite (fun _ => noNewWait_deny s t _ _) fun _ => ?_
  split
  · exact noNewWait_refuse s t _
  · exact noNewWait_refuse s t _
  · split
    · exact .ite (fun _ => noNewWait_done s t _) fun _ => noNewWait_refuse s t _
    · exact .ite (fun _ => .after (noNewWait_done _ t _) (.of_agents rfl)) fun _ =>
        noNewWait_refuse s t _

theorem noNewWait_unbindQueue (t : Agent) (q : QueueId) : NoNewWait s (unbindQueue s t q) :=
  .ite (fun _ => .after (noNewWait_done _ t _) (.of_agents rfl)) fun _ => noNewWait_deny s t _ _

theorem noNewWait_setWatch (t : Agent) (k : Fin 4) (x : Option QueueId) :
    NoNewWait s (setWatch s t k x) :=
  .after (noNewWait_done _ t _) (.of_setAgent rfl id)

theorem noNewWait_watchQueue (t : Agent) (q : QueueId) : NoNewWait s (watchQueue s t q) := by
  refine .ite (fun _ => noNewWait_deny s t _ _) fun _ =>
    .ite (fun _ => noNewWait_refuse s t _) fun _ => ?_
  split
  · exact noNewWait_refuse s t _
  · exact noNewWait_setWatch s t _ _

theorem noNewWait_unwatchQueue (t : Agent) (q : QueueId) : NoNewWait s (unwatchQueue s t q) := by
  unfold unwatchQueue
  split
  · exact noNewWait_refuse s t _
  · exact noNewWait_setWatch s t _ _

/-! ### The Agent Ports' commands -/

theorem noNewWait_attach (t : Agent) : NoNewWait s (attach s t) := by
  unfold attach
  split
  · exact .ite (fun _ => .of_setAgent rfl nofun) fun _ => noNewWait_deny s t _ _
  · exact noNewWait_done s t _

theorem noNewWait_detach (t : Agent) : NoNewWait s (detach s t) := by
  have left : NoNewWait s ((s.dropBindings t).setAgent t (s.agent t).detach) :=
    .of_setAgent rfl nofun
  exact .ite (fun _ => noNewWait_refuse s t _) fun _ => .after (noNewWait_done _ t _) left

theorem noNewWait_cancel (t : Agent) : NoNewWait s (cancel s t) := by
  unfold cancel
  split
  · exact noNewWait_leave_setAgent s t rfl
  · exact noNewWait_refuse s t _

/-! ### The Maintenance Engine -/

theorem noNewWait_acceptRetire (a : Agent) : NoNewWait s (acceptRetire s a) :=
  .after (u := (s.leaveWaitList a).setAgent a (s.agent a).retire) (.of_agents rfl)
    (noNewWait_leave_setAgent s a rfl)

theorem noNewWait_retire (a : Agent) : NoNewWait s (retire s a) := by
  have accepted : NoNewWait s ((acceptRetire s a).supResult .done) :=
    .after (noNewWait_supResult _ _) (noNewWait_acceptRetire s a)
  unfold retire
  split
  · exact .of_agents rfl
  · exact .of_agents rfl
  · exact accepted
  · exact accepted

theorem noNewWait_lockSweepStep : NoNewWait s (lockSweepStep s) := by
  cases state : s.engine.state with
  | retireLocks r c =>
    have sweep : NoNewWait s
        (if (s.lock c).hold.any (fun h => h.holder == r) then loseLock s c else s) :=
      .ite (fun _ => noNewWait_passLock s c true) fun _ => .of_agents rfl
    rw [lockSweepStep_eq state]
    exact .after (.of_agents rfl) sweep
  | _ => rw [lockSweepStep_not_called (by simp [state])]; exact .of_agents rfl

theorem noNewWait_queueSweepStep : NoNewWait s (queueSweepStep s) := by
  unfold queueSweepStep
  split
  · next r c _ =>
    have sweep : NoNewWait s
        (if (s.queue c).bound = some r then s.setQueue c { s.queue c with bound := none } else s) :=
      .ite (fun _ => .of_agents rfl) fun _ => .of_agents rfl
    dsimp only
    split
    · exact .after (.of_agents rfl) sweep
    · exact .after (noNewWait_endJob _) (.after (.of_setAgent rfl nofun) sweep)
  · exact .of_agents rfl

theorem noNewWait_discardHead (q : QueueId) : NoNewWait s (discardHead s q) := by
  unfold discardHead
  split <;> exact .of_agents rfl

theorem noNewWait_endPurge (q : QueueId) (lim : Limits) (closeAfter : Bool) :
    NoNewWait s (endPurge s q lim closeAfter) :=
  .ite (fun _ => .of_agents rfl) fun _ => .of_agents rfl

theorem noNewWait_purgeQueue (q : QueueId) (lim : Limits) (closeAfter : Bool) :
    NoNewWait s (purgeQueue s q lim closeAfter) :=
  .ite
    (fun _ => .after (noNewWait_endJob _) (.after (noNewWait_admissionPass _)
      (.after (noNewWait_endPurge _ q lim closeAfter) (noNewWait_discardHead s q))))
    fun _ => .after (noNewWait_admissionPass _) (noNewWait_discardHead s q)

theorem noNewWait_purgeStep : NoNewWait s (purgeStep s) := by
  unfold purgeStep
  split
  · split
    · exact .after (noNewWait_reckonStoreEmpty _ s) (noNewWait_purgeQueue s _ _ _)
    · exact .of_agents rfl
  · exact .of_agents rfl

/-! ### Ticks -/

theorem noNewWait_tickLock (l : LockId) : NoNewWait s (tickLock s l) := by
  unfold tickLock
  split
  · exact .of_agents rfl
  · split
    · exact .of_agents rfl
    · exact .ite (fun _ => .of_agents rfl) fun _ =>
        .after (noNewWait_setNotice _ _ _) (noNewWait_passLock s l true)

theorem noNewWait_lockTableTick : NoNewWait s (lockTableTick s) :=
  .ite (fun _ => .of_agents rfl) fun _ => .after (.foldl noNewWait_tickLock _ _) (.of_agents rfl)

/-- A deadline that is counted down is that of an agent that waits already. -/
theorem noNewWait_tickPort (a : Agent) : NoNewWait s (tickPort s a) := by
  unfold tickPort
  split
  · next w port =>
    split
    · exact .of_agents rfl
    · refine .ite (fun _ => .of_setAgent rfl fun _ => waits_of_port port) fun _ => ?_
      exact noNewWait_leave_setAgent s a rfl
  · exact .of_agents rfl

theorem noNewWait_agentPortsTick : NoNewWait s (agentPortsTick s) :=
  .ite (fun _ => .of_agents rfl) fun _ => .after (.foldl noNewWait_tickPort _ _) (.of_agents rfl)

/-! ### The commands of the supervisor -/

theorem noNewWait_clearPart : NoNewWait s (clearPart s) := fun a waits => by
  rw [State.waits, clearPart_agent] at waits
  cases waits

theorem noNewWait_enterReset : NoNewWait s (enterReset s) := fun a waits => by
  rw [State.waits, enterReset_agent] at waits
  cases waits

theorem noNewWait_supervisorCommand (c : SupCmd) : NoNewWait s (effectOf c.command s) := by
  have refused := noNewWait_supResult s .badObject
  cases c with
  | lockConfig => exact withSupObject_induct refused (noNewWait_lockConfig s)
  | queueOpen => exact .of_ports (queueOpenCommand_port s)
  | queueClose => exact withSupObject_induct refused (noNewWait_queueClose s)
  | queuePurge => exact withSupObject_induct refused (noNewWait_queuePurge s)
  | retire => exact withSupObject_induct refused (noNewWait_retire s)
  | quiesce | resume | ackViolation => exact .of_agents rfl
  | clear => exact noNewWait_clearPart s

theorem noNewWait_writeScmd (code : Word) : NoNewWait s (writeScmd s code) := by
  cases known : SupCmd.ofCode code with
  | none =>
    rw [writeScmd_unknown known]
    exact noNewWait_supResult s _
  | some c =>
    rw [writeScmd_known known]
    exact noNewWait_supervisorCommand s c

theorem noNewWait_writeSupReg (r : SupReg) (v : Word) : NoNewWait s (writeSupReg s r v) := by
  cases r with
  | scmd => exact noNewWait_writeScmd s v
  | _ => exact .of_agents rfl

/-! ### The commands that start a wait, in quiesce mode -/

section Quiesced

variable {s} (quiesce : s.sup.quiesce = true)
include quiesce

theorem noNewWait_acquireWait (t : Agent) (l : LockId) (h : Hold) :
    NoNewWait s (acquireWait s t l h) :=
  .ite (fun _ => noNewWait_refuse s t _) fun _ =>
    .ite (fun _ => noNewWait_refuse s t _) fun active => absurd quiesce active

theorem noNewWait_acquire (t : Agent) (l : LockId) : NoNewWait s (acquire s t l) := by
  unfold acquire
  split
  · exact noNewWait_refuse s t _
  · refine .ite (fun _ => noNewWait_deny s t _ _) fun _ => ?_
    split
    · exact .after (noNewWait_setResult _ t _) (.of_agents rfl)
    · refine .ite (fun _ => ?_) fun _ => ?_
      · exact .ite (fun _ => noNewWait_refuse s t _) fun _ =>
          .after (noNewWait_done _ t _) (.of_agents rfl)
      · split
        · exact noNewWait_refuse s t _
        · exact noNewWait_acquireWait quiesce t l _

theorem noNewWait_sendBlocked (t : Agent) (q : QueueId) (mode : Mode) (m : Message) :
    NoNewWait s (sendBlocked s t q mode m) := by
  cases mode with
  | nowait => exact noNewWait_refuse s t _
  | wait => rw [sendBlocked_quiesced m quiesce]; exact noNewWait_refuse s t _

theorem noNewWait_sendOffer (t : Agent) (q : QueueId) (mode : Mode) (m : Message) :
    NoNewWait s (sendOffer s t q mode m) := by
  unfold sendOffer
  split
  · exact .after (noNewWait_done _ t _) (noNewWait_handOff s q m _)
  · exact .ite (fun _ => .after (noNewWait_done _ t _) (noNewWait_admitMessage s q m)) fun _ =>
      noNewWait_sendBlocked quiesce t q mode m

theorem noNewWait_send (t : Agent) (q : QueueId) : NoNewWait s (send s t q) := by
  unfold send
  split
  · exact noNewWait_refuse s t _
  · refine .ite (fun _ => noNewWait_refuse s t _) fun _ =>
      .ite (fun _ => noNewWait_deny s t _ _) fun _ => ?_
    split
    · exact noNewWait_refuse s t _
    · exact noNewWait_refuse s t _
    · exact .after (noNewWait_reckonStoreEmpty _ s) (noNewWait_sendOffer quiesce t q _ _)

theorem noNewWait_receiveBlocked (t : Agent) (q : QueueId) (mode : Mode) (label mask : Word) :
    NoNewWait s (receiveBlocked s t q mode label mask) := by
  cases mode with
  | nowait => exact noNewWait_refuse s t _
  | wait => rw [receiveBlocked_quiesced label mask quiesce]; exact noNewWait_refuse s t _

theorem noNewWait_receiveSearch (t : Agent) (q : QueueId) (mode : Mode) (label mask : Word) :
    NoNewWait s (receiveSearch s t q mode label mask) := by
  unfold receiveSearch
  split
  · exact .after (noNewWait_admissionPass _) (noNewWait_takeMessage s t q _ _)
  · split
    · exact noNewWait_takeFromSender s t q _ _
    · exact noNewWait_receiveBlocked quiesce t q mode label mask

theorem noNewWait_receive (t : Agent) (q : QueueId) : NoNewWait s (receive s t q) := by
  unfold receive
  split
  · exact noNewWait_refuse s t _
  · refine .ite (fun _ => noNewWait_deny s t _ _) fun _ =>
      .ite (fun _ => noNewWait_deny s t _ _) fun _ => ?_
    split
    · exact noNewWait_refuse s t _
    · exact noNewWait_refuse s t _
    · exact .after (noNewWait_reckonStoreEmpty _ s) (noNewWait_receiveSearch quiesce t q _ _ _)

/-! ### The commands as the bus brings them -/

theorem noNewWait_command (t : Agent) (c : AgentCmd) : NoNewWait s (effectOf (c.command t) s) := by
  have refused := noNewWait_refuse s t
  rw [effectOf_command]
  refine acceptCommand_induct refused ?_
  cases c with
  | attach => exact noNewWait_attach s t
  | detach => exact noNewWait_detach s t
  | cancel => exact noNewWait_cancel s t
  | acquire => exact withLock_induct (refused _) (noNewWait_acquire quiesce t)
  | release => exact withLock_induct (refused _) (noNewWait_release s t)
  | renew => exact withLock_induct (refused _) (noNewWait_renew s t)
  | send => exact withQueue_induct (refused _) (noNewWait_send quiesce t)
  | receive => exact withQueue_induct (refused _) (noNewWait_receive quiesce t)
  | bind => exact withQueue_induct (refused _) (noNewWait_bindQueue s t)
  | unbind => exact withQueue_induct (refused _) (noNewWait_unbindQueue s t)
  | watch => exact withQueue_induct (refused _) (noNewWait_watchQueue s t)
  | unwatch => exact withQueue_induct (refused _) (noNewWait_unwatchQueue s t)

theorem noNewWait_writeCmd (t : Agent) (code : Word) : NoNewWait s (writeCmd s t code) := by
  cases known : AgentCmd.ofCode code with
  | none =>
    rw [writeCmd_unknown known]
    exact acceptCommand_induct (noNewWait_refuse s t) (.of_agents rfl)
  | some c =>
    rw [writeCmd_known known]
    exact noNewWait_command quiesce t c

theorem noNewWait_writeAgentReg (t : Agent) (r : AgentReg) (v : Word) :
    NoNewWait s (writeAgentReg s t r v) := by
  cases r with
  | cmd => exact noNewWait_writeCmd quiesce t v
  | operand | nen | shdr | slabel | stg => exact .of_setAgent rfl id
  | _ => exact .of_agents rfl

theorem noNewWait_busWrite (t : Agent) (off : Offset) (v : Word) :
    NoNewWait s (busWrite s t off v) :=
  .ite
    (fun _ => .ite (fun _ => noNewWait_writeSupReg s _ v) fun _ => noNewWait_recordViolation s t _)
    fun _ => noNewWait_writeAgentReg quiesce t _ v

/-! ### Every command -/

theorem noNewWait_effectOf (c : Instr) : NoNewWait s (effectOf c s) := by
  cases c with
  | attach t => exact noNewWait_command quiesce t .attach
  | detach t => exact noNewWait_command quiesce t .detach
  | cancel t => exact noNewWait_command quiesce t .cancel
  | acquire t => exact noNewWait_command quiesce t .acquire
  | release t => exact noNewWait_command quiesce t .release
  | renew t => exact noNewWait_command quiesce t .renew
  | send t => exact noNewWait_command quiesce t .send
  | receive t => exact noNewWait_command quiesce t .receive
  | bind t => exact noNewWait_command quiesce t .bind
  | unbind t => exact noNewWait_command quiesce t .unbind
  | watch t => exact noNewWait_command quiesce t .watch
  | unwatch t => exact noNewWait_command quiesce t .unwatch
  | lockConfig => exact noNewWait_supervisorCommand s .lockConfig
  | queueOpen => exact noNewWait_supervisorCommand s .queueOpen
  | queueClose => exact noNewWait_supervisorCommand s .queueClose
  | queuePurge => exact noNewWait_supervisorCommand s .queuePurge
  | retire => exact noNewWait_supervisorCommand s .retire
  | clear => exact noNewWait_clearPart s
  | reset => exact noNewWait_enterReset s
  | quiesce | resume | ackViolation | tickdivWrite | freezeAssert | freezeRelease =>
    exact .of_agents rfl
  | noteRead | nenWrite | tickloRead | tickhiRead => exact .of_setAgent rfl id
  | supervisorPageWriteDenied t off v | registerWrite t off v =>
    exact noNewWait_busWrite quiesce t off v
  | unknownAgentCommandCode t code => exact noNewWait_writeCmd quiesce t code
  | unknownSupervisorCommandCode code => exact noNewWait_writeScmd s code
  | resetRelease straps => exact .of_agents (releaseReset_frame straps).2
  | tick | refclkPeriodCounted => exact .of_agents (timeEvent_frame _).1
  | leaseCountdown => exact noNewWait_lockTableTick s
  | leaseExpiry l => exact .ite (fun _ => noNewWait_lockTableTick s) fun _ => .of_agents rfl
  | deadlineCountdown => exact noNewWait_agentPortsTick s
  | deadlineExpiry a => exact .ite (fun _ => noNewWait_agentPortsTick s) fun _ => .of_agents rfl
  | lockSweepStep => exact noNewWait_lockSweepStep s
  | queueSweepStep => exact noNewWait_queueSweepStep s
  | purgeStep => exact noNewWait_purgeStep s

end Quiesced

/-! ### QUIESCE and RESUME -/

/-- QUIESCE and RESUME set the mode and end DONE, whatever it was (R151). -/
theorem setQuiesce_eq (on : Bool) :
    setQuiesce s on = { s with sup := { s.sup with quiesce := on, sres := .done, sresv := 0 } } :=
  rfl

/-- Settles O26: the two commands, and that in quiesce mode each command's effect starts no wait. -/
theorem quiesceModeRefusesNewWaits : Obligations.QuiesceModeRefusesNewWaits := by
  refine ⟨fun s running => ⟨?_, ?_⟩, fun c a s s' run quiesce waits => ?_⟩
  · rw [exec_quiesce, writeCycle_running s _ running, setQuiesce_eq]
  · rw [exec_resume, writeCycle_running s _ running, setQuiesce_eq]
  · rcases exec_agent run a with same | taken
    · rwa [same] at waits
    · rw [taken] at waits
      exact noNewWait_effectOf quiesce c a waits

end Sys2Proof.Machine

/-! The other registers of the window (section 10.4, Tables 10-6 to 10-10), the bits of the notice kinds, and the read cycle: each packed register is a sum of its fields, from its lowest one up. -/

namespace Sys2Proof.Machine

variable {s : State} {t : Agent}

/-! ### Flags and the words that pack them -/

/-- A flag above the bits of a number is added to it. -/
theorem flagAt_or_ofNat {b : Bool} {pos low : Nat} (fits : low < 2 ^ pos) :
    flagAt b pos ||| BitVec.ofNat 16 low = BitVec.ofNat 16 ((if b then 2 ^ pos else 0) + low) := by
  rw [flagAt_eq_fieldAt, fieldAt_or_ofNat fits, toNat_mul_eq_ite]

theorem Urgency.isUrgent_iff {u : Urgency} : u.isUrgent = true ↔ u = .urgent := by
  cases u <;> simp [Urgency.isUrgent]

/-- What both headers have in their low six bits: a reply mark, URGENT and a length (Table 10-6). -/
def headerLow (reply : Bool) (u : Urgency) (length : Nat) : Nat :=
  (if reply then 32 else 0) + ((if u = .urgent then 16 else 0) + length)

theorem headerLow_lt (reply : Bool) (u : Urgency) {length : Nat} (short : length < 16) :
    headerLow reply u length < 2 ^ 6 := by
  unfold headerLow
  split <;> split <;> omega

theorem flags_or_length_eq_headerLow (reply : Bool) (u : Urgency) {length : Nat}
    (short : length < 16) :
    flagAt reply 5 ||| (flagAt u.isUrgent 4 ||| fieldAt length 0) =
      BitVec.ofNat 16 (headerLow reply u length) := by
  have below : (if u.isUrgent then 2 ^ 4 else 0) + length < 2 ^ 5 := by
    split <;> omega
  rw [fieldAt_low, flagAt_or_ofNat short, flagAt_or_ofNat below]
  simp only [headerLow, Urgency.isUrgent_iff, Nat.reducePow]

/-- SHDR (Table 10-6). -/
theorem Staging.header_eq (g : Staging) :
    g.header = BitVec.ofNat 16 (g.replyQueue.toNat * 64 + (if g.replyPresent then 32 else 0) +
      (if g.urgency = .urgent then 16 else 0) + g.length.toNat) := by
  have short : g.length.toNat < 16 := g.length.isLt
  rw [Staging.header, BitVec.or_assoc, BitVec.or_assoc, flags_or_length_eq_headerLow _ _ short,
    fieldAt_or_ofNat (headerLow_lt _ _ short)]
  simp only [headerLow, Nat.reducePow, Nat.add_assoc]

/-- The reply queue and its present mark, as DHDR packs them. -/
theorem optNumber_mul_add_isSome (reply : Option QueueId) :
    optNumber reply * 64 + (if reply.isSome then 32 else 0) =
      reply.elim 0 fun q => q.val * 64 + 32 := by
  cases reply <;> rfl

/-- DHDR (Table 10-6). -/
theorem Delivery.header_eq {d : Delivery} (short : d.length ≤ 8) :
    d.header = BitVec.ofNat 16 (d.source.val * 4096 + d.reply.elim 0 (fun q => q.val * 64 + 32) +
      (if d.urgency = .urgent then 16 else 0) + d.length) := by
  have below := headerLow_lt d.reply.isSome d.urgency (show d.length < 16 by omega)
  have queue : optNumber d.reply < 32 := by
    cases d.reply with
    | none => decide
    | some q => exact q.isLt
  rw [Delivery.header, BitVec.or_assoc, BitVec.or_assoc, BitVec.or_assoc,
    flags_or_length_eq_headerLow _ _ (by omega), fieldAt_or_ofNat below,
    fieldAt_or_ofNat (by omega), ← optNumber_mul_add_isSome]
  simp only [headerLow, Nat.reducePow, Nat.add_assoc]

theorem EngineState.object_lt (e : EngineState) : e.object < 64 := by
  cases e <;> simp only [EngineState.object] <;> omega

/-- ENGINE: the number of the state in bits 15 and 14, the object of the job, the number of jobs (Table 10-9). -/
theorem Engine.word_of_state {e : Engine} {state : EngineState} {top : Nat}
    (at_state : e.state = state) (number : state.number * 0x4000 = top)
    (few : e.jobs.length ≤ 48) :
    e.word = BitVec.ofNat 16 (top + state.object * 256 + e.jobs.length) := by
  have object := state.object_lt
  rw [Engine.word, at_state, BitVec.or_assoc, fieldAt_low, fieldAt_or_ofNat (by omega),
    fieldAt_or_ofNat (by omega), ← number]
  simp only [Nat.reducePow, Nat.add_assoc]

/-- VCAP0 of a recorded command (Table 10-10). -/
theorem captureWord_command (a : Agent) (c : AgentCmd) (object : BitVec 6) (more : Bool) :
    captureWord (some { tag := a, event := .command c object, more := more }) 0 =
      BitVec.ofNat 16 (0x8000 + (if more then 0x4000 else 0) + a.val) := by
  have bit := more.toNat_le
  change flagAt true 15 ||| flagAt more 14 ||| fieldAt a.val 0 = _
  simp only [flagAt_eq_fieldAt, Bool.toNat_true, fieldAt_low, BitVec.or_assoc]
  rw [fieldAt_or_ofNat (by omega), fieldAt_or_ofNat (by omega), ← toNat_mul_eq_ite]
  exact congrArg (BitVec.ofNat 16) (by omega)

/-- VCAP0 of a recorded page write (Table 10-10). -/
theorem captureWord_pageWrite (a : Agent) (off : Offset) (more : Bool) :
    captureWord (some { tag := a, event := .pageWrite off, more := more }) 0 =
      BitVec.ofNat 16 (0xB000 + (if more then 0x4000 else 0) + a.val) := by
  have bit := more.toNat_le
  change flagAt true 15 ||| flagAt more 14 ||| flagAt true 13 ||| flagAt true 12 |||
    fieldAt a.val 0 = _
  simp only [flagAt_eq_fieldAt, Bool.toNat_true, fieldAt_low, BitVec.or_assoc]
  rw [fieldAt_or_ofNat (by omega), fieldAt_or_ofNat (by omega), fieldAt_or_ofNat (by omega),
    fieldAt_or_ofNat (by omega), ← toNat_mul_eq_ite]
  exact congrArg (BitVec.ofNat 16) (by omega)

/-- The quiet indication, agent by agent (R152). -/
theorem quiet_iff : s.quiet = true ↔
    s.sup.quiesce = true ∧ (∀ a, (s.agent a).port.isWaiting = false) ∧ s.engine.state = .idle := by
  have byPort : s.quiet = (s.sup.quiesce && s.engine.state == .idle &&
      !(s.agents.any fun c => c.port.isWaiting)) := rfl
  have noneWaits : (s.agents.any fun c => c.port.isWaiting) = false ↔
      ∀ a, (s.agent a).port.isWaiting = false := by
    simp [← Bool.not_eq_true, Table.any_eq_true, State.agent]
  simp only [byPort, Bool.and_eq_true, Bool.not_eq_true', beq_iff_eq, noneWaits]
  tauto

/-- The two bits of QUIET (Table 10-9). -/
theorem quietWord_eq : flagAt s.quiet 1 ||| flagAt s.sup.quiesce 0 =
    BitVec.ofNat 16
      ((if s.sup.quiesce = true ∧ (∀ a, (s.agent a).port.isWaiting = false) ∧
          s.engine.state = .idle then 2 else 0) +
        (if s.sup.quiesce then 1 else 0)) := by
  have bit := s.sup.quiesce.toNat_le
  rw [flagAt_eq_fieldAt s.sup.quiesce, fieldAt_low, flagAt_or_ofNat (by omega)]
  simp only [quiet_iff, Nat.reducePow, ← toNat_mul_eq_ite s.sup.quiesce, Nat.mul_one]

/-- The blocked senders whose target is a queue, as QWAIT counts them. -/
theorem countP_blockedMessage (q : QueueId) :
    s.senderWait.countP (fun a => (s.blockedMessage q a).isSome) =
      (s.senderWait.filter fun a => (s.agent a).awaitedSend.any (·.1 == q)).length := by
  have sameTarget : ∀ a, (s.blockedMessage q a).isSome = (s.agent a).awaitedSend.any (·.1 == q) := by
    intro a
    rw [Bool.eq_iff_iff, Option.isSome_iff_exists, Option.any_eq_true]
    simp [blockedMessage_eq_some_iff]
  simp only [List.countP_eq_length_filter, sameTarget]

/-- QWAIT (Table 10-2, R156). -/
theorem State.waitWord_eq {q : QueueId} (few : (s.queue q).receivers.length ≤ 16) :
    s.waitWord q = BitVec.ofNat 16
      ((s.senderWait.filter fun a => (s.agent a).awaitedSend.any (·.1 == q)).length * 256 +
        (s.queue q).receivers.length) := by
  rw [State.waitWord, fieldAt_low, fieldAt_or_ofNat (by omega), countP_blockedMessage]
  norm_num

/-! ### The registers of the two pages -/

theorem dlv_offset : ∀ i : Fin 8,
    Offset.supervisorPage (BitVec.ofNat 8 (0x34 + 2 * i.val)) = false ∧
    AgentReg.ofOffset (BitVec.ofNat 8 (0x34 + 2 * i.val)) = .dlv i := by decide

theorem readReg_shdr : s.readReg t 0x1A = (s.agent t).staging.header :=
  readReg_agentPage (r := .shdr) ⟨rfl, rfl⟩

theorem readReg_dhdr : s.readReg t 0x2E = (s.agent t).delivery.header :=
  readReg_agentPage (r := .dhdr) ⟨rfl, rfl⟩

theorem readReg_sres : s.readReg s.sup.tag 0x8C = s.sup.sres.number :=
  readReg_supervisorPage (r := .sres) ⟨rfl, rfl⟩

theorem readReg_engine : s.readReg s.sup.tag 0x98 = s.engine.word :=
  readReg_supervisorPage (r := .engine) ⟨rfl, rfl⟩

theorem readReg_quiet :
    s.readReg s.sup.tag 0x9A = flagAt s.quiet 1 ||| flagAt s.sup.quiesce 0 :=
  readReg_supervisorPage (r := .quiet) ⟨rfl, rfl⟩

theorem readReg_vcap :
    s.readReg s.sup.tag 0x9C = captureWord s.sup.capture 0 ∧
    s.readReg s.sup.tag 0x9E = captureWord s.sup.capture 1 ∧
    s.readReg s.sup.tag 0xA0 = captureWord s.sup.capture 2 :=
  ⟨readReg_supervisorPage (r := .vcap 0) ⟨rfl, rfl⟩,
    readReg_supervisorPage (r := .vcap 1) ⟨rfl, rfl⟩,
    readReg_supervisorPage (r := .vcap 2) ⟨rfl, rfl⟩⟩

theorem readReg_qwait {q : QueueId} (names : s.sup.queueSel.toNat = q.val) :
    s.readReg s.sup.tag 0xB4 = s.waitWord q :=
  (readReg_supervisorPage (r := .qwait) ⟨rfl, rfl⟩).trans (selected_of_eq _ names)

/-- An empty capture reads 0 in each of its words (R153). -/
theorem readReg_vcap_empty (empty : s.sup.capture = none) :
    ∀ off ∈ [(0x9C : Offset), 0x9E, 0xA0], s.readReg s.sup.tag off = 0 := by
  obtain ⟨word0, word1, word2⟩ := readReg_vcap (s := s)
  rw [empty] at word0 word1 word2
  intro off listed
  simp only [List.mem_cons, List.not_mem_nil, or_false] at listed
  rcases listed with rfl | rfl | rfl
  · exact word0
  · exact word1
  · exact word2

/-- CMD and the unused offsets of Table 10-1. -/
theorem agentUnread_offset : ∀ off : Offset, off.getLsbD 0 = false →
    off = 0x00 ∨ 0x44 ≤ off.toNat ∧ off.toNat ≤ 0x7E →
    Offset.supervisorPage off = false ∧
      (AgentReg.ofOffset off = .cmd ∨ AgentReg.ofOffset off = .unused) := by
  decide +kernel

/-- SCMD and the unused offsets of Table 10-2. -/
theorem supUnread_offset : ∀ off : Offset, off.getLsbD 0 = false →
    off = 0x80 ∨ 0xBC ≤ off.toNat →
    Offset.supervisorPage off = true ∧
      (SupReg.ofOffset off = .scmd ∨ SupReg.ofOffset off = .unused) := by
  decide +kernel

theorem readReg_agentUnread {off : Offset} (even : off.getLsbD 0 = false)
    (range : off = 0x00 ∨ 0x44 ≤ off.toNat ∧ off.toNat ≤ 0x7E) : s.readReg t off = 0 := by
  obtain ⟨page, cmd | unused⟩ := agentUnread_offset off even range
  · exact readReg_agentPage ⟨page, cmd⟩
  · exact readReg_agentPage ⟨page, unused⟩

theorem readReg_supUnread {off : Offset} (even : off.getLsbD 0 = false)
    (range : off = 0x80 ∨ 0xBC ≤ off.toNat) : s.readReg s.sup.tag off = 0 := by
  obtain ⟨page, scmd | unused⟩ := supUnread_offset off even range
  · exact readReg_supervisorPage ⟨page, scmd⟩
  · exact readReg_supervisorPage ⟨page, unused⟩

/-! ### Notice kinds and the read cycle -/

/-- A kind at position `n` is that bit of a notice set (Table 10-7). -/
theorem Notice.bit_of_position {k : Notice} {n : Nat} (position : k.position = n) :
    k.bit = BitVec.ofNat 16 (2 ^ n) ∧ ∀ w : Word, holdsNotice w k = w.getLsbD n := by
  rw [Notice.bit, ← position]
  exact ⟨rfl, fun _ => rfl⟩

/-- A read without a side effect answers with the register's contents (R158, R161). -/
theorem registerRead_plain {off : Offset} (running : Running s) (even : off.getLsbD 0 = false)
    (plain : off ∉ [(0x12 : Offset), 0x16, 0x18]) :
    registerRead t off s = .next (s.answerRead (s.readReg t off)) := by
  rw [registerRead_eq, readCycle_running s _ _ running, busRead_plain s t even plain]

/-- Settles O31: a packed register is the sum of its fields, every other one is its field, and a read cycle answers with it. -/
theorem registersReadTheirFields : Obligations.RegistersReadTheirFields := by
  refine ⟨fun t s => ⟨fun i => readReg_agentPage (operand_offset i),
      readReg_agentPage (r := .note) ⟨rfl, rfl⟩, readReg_agentPage (r := .nen) ⟨rfl, rfl⟩,
      readReg_shdr.trans (Staging.header_eq _), readReg_agentPage (r := .slabel) ⟨rfl, rfl⟩,
      fun i => readReg_agentPage (stg_offset i),
      fun short => readReg_dhdr.trans (Delivery.header_eq short),
      readReg_agentPage (r := .dlabel) ⟨rfl, rfl⟩, readReg_agentPage (r := .dseq) ⟨rfl, rfl⟩,
      fun i => readReg_agentPage (dlv_offset i),
      fun off even range => readReg_agentUnread even range⟩,
    fun s => ⟨fun i => readReg_supervisorPage (supOperand_offset i), readReg_sres,
      readReg_supervisorPage (r := .sresv) ⟨rfl, rfl⟩, fun x listed code => ?_,
      readReg_supervisorPage (r := .permit) ⟨rfl, rfl⟩,
      readReg_supervisorPage (r := .tickdiv) ⟨rfl, rfl⟩,
      readReg_supervisorPage (r := .free) ⟨rfl, rfl⟩,
      readReg_supervisorPage (r := .unres) ⟨rfl, rfl⟩, fun few => ?_,
      readReg_quiet.trans quietWord_eq, readReg_vcap_empty, fun a c object more capture => ?_,
      fun a off more capture => ?_, readReg_supervisorPage (r := .lockSel) ⟨rfl, rfl⟩,
      readReg_supervisorPage (r := .qsel) ⟨rfl, rfl⟩,
      (readReg_supervisorPage (r := .suptag) ⟨rfl, rfl⟩).trans (fieldAt_low _),
      fun q names receivers _ => (readReg_qwait names).trans (State.waitWord_eq receivers),
      fun off even range => readReg_supUnread even range⟩,
    fun x listed => Notice.bit_of_position ?_,
    fun t s => ⟨registerRead_note s t, registerRead_ticklo s t, registerRead_tickhi s t⟩,
    fun t off s running even plain => registerRead_plain running even plain,
    fun v s => ⟨fun waits => answerCycle_answered s waits,
      fun leaves => answerCycle_abandoned s leaves⟩⟩
  · have number : x.1.number = x.2 := by
      clear code
      revert x
      decide
    rw [readReg_sres, code, number]
  · rw [readReg_engine]
    cases state : s.engine.state with
    | idle =>
      rw [Engine.word_of_state (top := 0) state (by rw [EngineState.number]) few,
        EngineState.object, Nat.zero_mul, Nat.zero_add]
    | retireLocks r c =>
      rw [Engine.word_of_state (top := 0x4000) state (by rw [EngineState.number]) few,
        EngineState.object]
    | retireQueues r c =>
      rw [Engine.word_of_state (top := 0x8000) state (by rw [EngineState.number]) few,
        EngineState.object]
    | purge q =>
      rw [Engine.word_of_state (top := 0xC000) state (by rw [EngineState.number]) few,
        EngineState.object]
  · obtain ⟨word0, word1, word2⟩ := readReg_vcap (s := s)
    rw [word0, word1, word2, capture]
    exact ⟨captureWord_command a c object more, rfl, rfl⟩
  · obtain ⟨word0, word1, word2⟩ := readReg_vcap (s := s)
    rw [word0, word1, word2, capture]
    exact ⟨captureWord_pageWrite a off more, rfl, rfl⟩
  · revert x
    decide

end Sys2Proof.Machine

/-! The queue of commands: a step runs the command at its front, every command has a next state, and none touches the queue (0.6.5). With it what the BIU drives between two cycles (R158), for both are outside of all that a command does within the part. -/

namespace Sys2Proof.Machine

/-- Settles O1: the two branches of a step. -/
theorem stepRunsFrontCommand : Obligations.StepRunsFrontCommand :=
  ⟨fun _ _ s => step_front { s with pending := _ } rfl, step_idle⟩

/-! ### What lies outside of the part -/

/-- The queue of commands is the same, and a released bus stays released. -/
structure Outside (s s' : State) : Prop where
  pending : s'.pending = s.pending
  bus : BusLaw s → BusLaw s'

theorem InnerEvent.outside {s s' : State} (event : InnerEvent s s') : Outside s s' :=
  ⟨event.pending, fun released => by rwa [BusLaw, event.bus]⟩

theorem Outside.of_same {s s' : State} (pending : s'.pending = s.pending := by rfl)
    (bus : s'.bus = s.bus := by rfl) : Outside s s' :=
  ⟨pending, fun released => by rwa [BusLaw, bus]⟩

/-- The later of two events is given first: it says what the earlier ends in. -/
theorem Outside.after {s u s' : State} (later : Outside u s') (earlier : Outside s u) :
    Outside s s' :=
  ⟨later.pending.trans earlier.pending, fun released => later.bus (earlier.bus released)⟩

theorem Outside.ite {s u v : State} {p : Prop} [Decidable p] (taken : p → Outside s u)
    (skipped : ¬ p → Outside s v) : Outside s (if p then u else v) := by
  split
  · next holds => exact taken holds
  · next fails => exact skipped fails

variable (s : State)

theorem outside_reckonStoreEmpty (before : State) : Outside s (reckonStoreEmpty before s) :=
  (inner_reckonStoreEmpty s before).outside

theorem outside_recordViolation (t : Agent) (e : ViolationEvent) :
    Outside s (s.recordViolation t e) := by
  obtain ⟨-, -, -, -, -, -, -, bus, pending, -⟩ := recordViolation_frame s t e
  exact .of_same pending bus

theorem outside_deny (t : Agent) (c : AgentCmd) (object : Nat) :
    Outside s (s.deny t c object) :=
  .after (outside_recordViolation _ t _) (inner_refuse s t .denied).outside

/-! ### The commands -/

theorem outside_acquire (t : Agent) (l : LockId) : Outside s (acquire s t l) := by
  unfold acquire
  split
  · exact .of_same
  · refine .ite (fun _ => outside_deny s t _ _) fun _ => ?_
    split
    · exact .of_same
    · refine .ite (fun _ => (inner_acquireNested s t l _).outside) fun _ => ?_
      split
      · exact .of_same
      · exact (inner_acquireWait s t l _).outside

theorem outside_attach (t : Agent) : Outside s (attach s t) := by
  unfold attach
  split
  · exact .ite (fun _ => .of_same) fun _ => outside_deny s t _ _
  · exact .of_same

theorem outside_send (t : Agent) (q : QueueId) : Outside s (send s t q) := by
  unfold send
  split
  · exact .of_same
  · refine .ite (fun _ => .of_same) fun _ => .ite (fun _ => outside_deny s t _ _) fun _ => ?_
    split
    · exact .of_same
    · exact .of_same
    · exact .after (outside_reckonStoreEmpty _ s) (inner_sendOffer s t q _ _).outside

theorem outside_receive (t : Agent) (q : QueueId) : Outside s (receive s t q) := by
  unfold receive
  split
  · exact .of_same
  · refine .ite (fun _ => outside_deny s t _ _) fun _ =>
      .ite (fun _ => outside_deny s t _ _) fun _ => ?_
    split
    · exact .of_same
    · exact .of_same
    · exact .after (outside_reckonStoreEmpty _ s) (inner_receiveSearch s t q _ _ _).outside

theorem outside_bindQueue (t : Agent) (q : QueueId) : Outside s (bindQueue s t q) := by
  refine .ite (fun _ => outside_deny s t _ _) fun _ => ?_
  split
  · exact .of_same
  · exact .of_same
  · split
    · exact .ite (fun _ => .of_same) fun _ => .of_same
    · exact .ite (fun _ => .of_same) fun _ => .of_same

theorem outside_unbindQueue (t : Agent) (q : QueueId) : Outside s (unbindQueue s t q) :=
  .ite (fun _ => .of_same) fun _ => outside_deny s t _ _

theorem outside_watchQueue (t : Agent) (q : QueueId) : Outside s (watchQueue s t q) := by
  refine .ite (fun _ => outside_deny s t _ _) fun _ => .ite (fun _ => .of_same) fun _ => ?_
  split
  · exact .of_same
  · exact .of_same

theorem outside_queueOpen (q : QueueId) : Outside s (queueOpen s q) :=
  .ite (fun _ => .of_same) fun _ => .ite (fun _ => .of_same) fun _ => .ite (fun _ => .of_same)
    fun _ => .after (outside_reckonStoreEmpty _ s) .of_same

theorem outside_queueClose (q : QueueId) : Outside s (queueClose s q) := by
  unfold queueClose
  split
  · exact .of_same
  · exact .of_same
  · exact .after (outside_reckonStoreEmpty _ s)
      (.after (u := closeOpened (endWaiters s q .closed) q _) .of_same
        ((inner_closeOpened _ q _).after (inner_endWaiters s q _)).outside)

theorem outside_queuePurge (q : QueueId) : Outside s (queuePurge s q) := by
  unfold queuePurge
  split
  · exact .of_same
  · exact .of_same
  · have ended := (inner_endWaiters s q .purging).outside
    exact .ite (fun _ => .after (u := endWaiters s q .purging) .of_same ended) fun _ =>
      .after (u := endWaiters s q .purging) .of_same ended

theorem outside_retire (a : Agent) : Outside s (retire s a) := by
  have accepted : Outside s ((acceptRetire s a).supResult .done) :=
    .after (u := acceptRetire s a) .of_same (inner_acceptRetire s a).outside
  unfold retire
  split
  · exact .of_same
  · exact .of_same
  · exact accepted
  · exact accepted

theorem outside_enterReset : Outside s (enterReset s) :=
  ⟨rfl, fun _ => rfl⟩

theorem outside_releaseReset (straps : Agent) : Outside s (releaseReset s straps) :=
  .ite (fun _ => .of_same) fun _ => .of_same

theorem outside_timeEvent (f : TimeBase → TimeBase) : Outside s (timeEvent s f) :=
  .ite (fun _ => .of_same) fun _ => .of_same

theorem outside_lockTableTick : Outside s (lockTableTick s) :=
  .ite (fun _ => .of_same) fun _ => .after (inner_tickAllLocks _).outside .of_same

theorem outside_agentPortsTick : Outside s (agentPortsTick s) :=
  .ite (fun _ => .of_same) fun _ => .after (inner_tickAllPorts _).outside .of_same

/-! ### The commands as the bus brings them -/

theorem outside_command (t : Agent) (c : AgentCmd) : Outside s (effectOf (c.command t) s) := by
  have refused : ∀ code, Outside s (s.refuse t code) := fun _ => .of_same
  rw [effectOf_command]
  refine acceptCommand_induct refused ?_
  cases c with
  | attach => exact outside_attach s t
  | detach => exact (inner_detach s t).outside
  | cancel => exact (inner_cancel s t).outside
  | acquire => exact withLock_induct (refused _) (outside_acquire s t)
  | release => exact withLock_induct (refused _) fun l => (inner_release s t l).outside
  | renew => exact withLock_induct (refused _) fun l => (inner_renew s t l).outside
  | send => exact withQueue_induct (refused _) (outside_send s t)
  | receive => exact withQueue_induct (refused _) (outside_receive s t)
  | bind => exact withQueue_induct (refused _) (outside_bindQueue s t)
  | unbind => exact withQueue_induct (refused _) (outside_unbindQueue s t)
  | watch => exact withQueue_induct (refused _) (outside_watchQueue s t)
  | unwatch => exact withQueue_induct (refused _) fun q => (inner_unwatchQueue s t q).outside

theorem outside_supervisorCommand (c : SupCmd) : Outside s (effectOf c.command s) := by
  have refused : Outside s (s.supResult .badObject) := .of_same
  cases c with
  | lockConfig =>
    exact withSupObject_induct refused fun l => .ite (fun _ => .of_same) fun _ => .of_same
  | queueOpen => exact withSupObject_induct refused (outside_queueOpen s)
  | queueClose => exact withSupObject_induct refused (outside_queueClose s)
  | queuePurge => exact withSupObject_induct refused (outside_queuePurge s)
  | retire => exact withSupObject_induct refused (outside_retire s)
  | quiesce | resume | ackViolation | clear => exact .of_same

theorem outside_writeCmd (t : Agent) (code : Word) : Outside s (writeCmd s t code) := by
  cases known : AgentCmd.ofCode code with
  | none =>
    rw [writeCmd_unknown known]
    exact acceptCommand_induct (fun _ => .of_same) .of_same
  | some c =>
    rw [writeCmd_known known]
    exact outside_command s t c

theorem outside_writeScmd (code : Word) : Outside s (writeScmd s code) := by
  cases known : SupCmd.ofCode code with
  | none =>
    rw [writeScmd_unknown known]
    exact .of_same
  | some c =>
    rw [writeScmd_known known]
    exact outside_supervisorCommand s c

theorem outside_writeAgentReg (t : Agent) (r : AgentReg) (v : Word) :
    Outside s (writeAgentReg s t r v) := by
  cases r with
  | cmd => exact outside_writeCmd s t v
  | _ => exact .of_same

theorem outside_writeSupReg (r : SupReg) (v : Word) : Outside s (writeSupReg s r v) := by
  cases r with
  | scmd => exact outside_writeScmd s v
  | _ => exact .of_same

theorem outside_busWrite (t : Agent) (off : Offset) (v : Word) : Outside s (busWrite s t off v) :=
  .ite
    (fun _ => .ite (fun _ => outside_writeSupReg s _ v) fun _ => outside_recordViolation s t _)
    fun _ => outside_writeAgentReg s t _ v

theorem outside_effectOf (c : Instr) : Outside s (effectOf c s) := by
  cases c with
  | attach t => exact outside_command s t .attach
  | detach t => exact outside_command s t .detach
  | cancel t => exact outside_command s t .cancel
  | acquire t => exact outside_command s t .acquire
  | release t => exact outside_command s t .release
  | renew t => exact outside_command s t .renew
  | send t => exact outside_command s t .send
  | receive t => exact outside_command s t .receive
  | bind t => exact outside_command s t .bind
  | unbind t => exact outside_command s t .unbind
  | watch t => exact outside_command s t .watch
  | unwatch t => exact outside_command s t .unwatch
  | lockConfig => exact outside_supervisorCommand s .lockConfig
  | queueOpen => exact outside_supervisorCommand s .queueOpen
  | queueClose => exact outside_supervisorCommand s .queueClose
  | queuePurge => exact outside_supervisorCommand s .queuePurge
  | retire => exact outside_supervisorCommand s .retire
  | quiesce | resume | ackViolation | clear | tickdivWrite | freezeAssert | freezeRelease =>
    exact .of_same
  | noteRead | nenWrite | tickloRead | tickhiRead => exact .of_same
  | supervisorPageWriteDenied t off v | registerWrite t off v => exact outside_busWrite s t off v
  | unknownAgentCommandCode t code => exact outside_writeCmd s t code
  | unknownSupervisorCommandCode code => exact outside_writeScmd s code
  | reset => exact outside_enterReset s
  | resetRelease straps => exact outside_releaseReset s straps
  | tick | refclkPeriodCounted => exact outside_timeEvent s _
  | leaseCountdown => exact outside_lockTableTick s
  | leaseExpiry l => exact .ite (fun _ => outside_lockTableTick s) fun _ => .of_same
  | deadlineCountdown => exact outside_agentPortsTick s
  | deadlineExpiry a => exact .ite (fun _ => outside_agentPortsTick s) fun _ => .of_same
  | lockSweepStep => exact (inner_lockSweepStep s).outside
  | queueSweepStep => exact (inner_queueSweepStep s).outside
  | purgeStep => exact (inner_purgeStep s).outside

/-! ### Every command -/

variable {s} {s' : State} {c : Instr}

/-- SEL# is released at the end of a cycle, however it went (R158). -/
theorem cycle_busLaw (answer : List BusLevels) : BusLaw (s.cycle answer) :=
  List.getLast?_concat

theorem exec_outside (run : exec c s = .next s') : Outside s s' := by
  have effect := outside_effectOf s c
  cases exec_ending run with
  | dropped => exact .of_same
  | unanswered => exact ⟨rfl, fun _ => cycle_busLaw _⟩
  | taken => exact effect
  | answered data => exact ⟨effect.pending, fun _ => cycle_busLaw _⟩

/-- The outcome is a next state, no fault and no refusal. -/
def EndsInNext (o : Host.Outcome State Fault Refusal) : Prop :=
  ∃ s', o = .next s'

theorem writeCycle_endsInNext (s : State) (access : State → State) :
    EndsInNext (writeCycle s access) := by
  cases held : s.pins.resetHeld with
  | true => exact ⟨_, writeCycle_held s access held⟩
  | false => exact ⟨_, writeCycle_running s access held⟩

theorem readCycle_endsInNext (s : State) (value : State → Word) (access : State → State) :
    EndsInNext (readCycle s value access) := by
  cases held : s.pins.resetHeld with
  | true => exact ⟨_, readCycle_held s value access held⟩
  | false => exact ⟨_, readCycle_running s value access held⟩

theorem blockEvent_endsInNext (s : State) (event : State → State) :
    EndsInNext (blockEvent s event) := by
  cases held : s.pins.resetHeld with
  | true => exact ⟨_, blockEvent_held s event held⟩
  | false => exact ⟨_, blockEvent_running s event held⟩

/-- A cycle, an event of a block and a change of a pin all end in a next state. -/
theorem exec_endsInNext (c : Instr) (s : State) : EndsInNext (exec c s) := by
  cases c with
  | reset | resetRelease | freezeAssert | freezeRelease => exact ⟨_, rfl⟩
  | noteRead | tickloRead | tickhiRead =>
    simp only [exec_noteRead, exec_tickloRead, exec_tickhiRead, readCycle_endsInNext]
  | tick | refclkPeriodCounted | leaseCountdown | leaseExpiry | deadlineCountdown | deadlineExpiry
    | lockSweepStep | queueSweepStep | purgeStep =>
    simp only [exec_tick, exec_refclkPeriodCounted, exec_leaseCountdown, exec_leaseExpiry,
      exec_deadlineCountdown, exec_deadlineExpiry, exec_lockSweepStep, exec_queueSweepStep,
      exec_purgeStep, blockEvent_endsInNext]
  | attach | detach | cancel | acquire | release | renew | send | receive | bind | unbind | watch
    | unwatch =>
    simp only [exec_attach, exec_detach, exec_cancel, exec_acquire, exec_release, exec_renew,
      exec_send, exec_receive, exec_bind, exec_unbind, exec_watch, exec_unwatch,
      writeCycle_endsInNext]
  | lockConfig | queueOpen | queueClose | queuePurge | retire | quiesce | resume | ackViolation
    | clear =>
    simp only [exec_lockConfig, exec_queueOpen, exec_queueClose, exec_queuePurge, exec_retire,
      exec_quiesce, exec_resume, exec_ackViolation, exec_clear, writeCycle_endsInNext]
  | nenWrite | tickdivWrite | supervisorPageWriteDenied | registerWrite | unknownAgentCommandCode
    | unknownSupervisorCommandCode =>
    simp only [exec_nenWrite, exec_tickdivWrite, exec_supervisorPageWriteDenied, exec_registerWrite,
      exec_unknownAgentCommandCode, exec_unknownSupervisorCommandCode, writeCycle_endsInNext]

/-- Settles O2: the state after a command, whose effect lies within the part. -/
theorem everyCommandEndsInNextState : Obligations.EveryCommandEndsInNextState := fun c s =>
  (exec_endsInNext c s).imp fun _ run => ⟨run, (exec_outside run).pending⟩

end Sys2Proof.Machine

/-! What an event can do to the waits at the queues, to the room in the store, and to the agents that hold locks or are bound to queues: the changes that keep the laws of each (R33, R36, R69, R80, R99, R106, R136, R138). -/

namespace Sys2Proof.Machine

/-! ### The laws, in two groups -/

/-- The laws of what waits at the queues, and for how long. -/
structure QueueLaws (s : State) : Prop where
  blocked : BlockedLaw s
  deadlines : DeadlineLaw s
  noMatch : NoMatchLaw s
  noRoom : NoRoomLaw s
  bound : BoundLaw s

/-- The laws of the agents that hold locks, are bound to queues, or watch them. -/
structure HolderLaws (s : State) : Prop where
  sweep : SweepLaw s
  detached : DetachedLaw s

/-! ### One context -/

/-- ATTACHED or WAITING: a state in which an agent can come to hold a lock or be bound to a queue (R105). -/
def Port.active : Port → Bool
  | .attached => true
  | .waiting _ => true
  | .detached => false
  | .retiring => false

/-- R99 for one context: a deadline remaining, when present, is between 1 and 65535. -/
def AgentCtx.DeadlineFits (c : AgentCtx) : Prop :=
  ∀ d ∈ c.deadline, 1 ≤ d ∧ d ≤ 65535

/-- No SEND becomes pending, and a deadline stays in its range. -/
structure AgentCtx.Settles (c c' : AgentCtx) : Prop where
  sends : ∀ x ∈ c'.awaitedSend, x ∈ c.awaitedSend
  deadline : c.DeadlineFits → c'.DeadlineFits

/-- The agent neither retires nor becomes DETACHED, and changes its watch list only while it is active. -/
structure AgentCtx.Stands (c c' : AgentCtx) : Prop where
  active : c.port.active = true → c'.port.active = true
  detached : c'.port = .detached → c.port = .detached
  watch : c'.port.active = false → c'.watch = c.watch

structure AgentCtx.Calms (c c' : AgentCtx) : Prop extends c.Settles c', c.Stands c'

namespace AgentCtx

variable {c d e : AgentCtx}

theorem Settles.trans (first : c.Settles d) (second : d.Settles e) : c.Settles e :=
  ⟨fun x sends => first.sends x (second.sends x sends),
    fun fits => second.deadline (first.deadline fits)⟩

theorem Stands.trans (first : c.Stands d) (second : d.Stands e) : c.Stands e where
  active := fun active => second.active (first.active active)
  detached := fun detached => first.detached (second.detached detached)
  watch := fun inactive => by
    have inactive' : d.port.active = false := by
      rw [Bool.eq_false_iff]
      exact fun active => Bool.eq_false_iff.mp inactive (second.active active)
    exact (second.watch inactive).trans (first.watch inactive')

theorem Settles.of_port (same : d.port = c.port) : c.Settles d := by
  constructor
  · rw [awaitedSend, awaitedSend, same]
    exact fun _ => id
  · rw [DeadlineFits, DeadlineFits, AgentCtx.deadline, AgentCtx.deadline, same]
    exact id

/-- A context that does not wait has neither a pending SEND nor a deadline. -/
theorem Settles.of_idle (idle : d.port.isWaiting = false) : c.Settles d := by
  cases port : d.port with
  | waiting w => simp [port, Port.isWaiting] at idle
  | _ => exact ⟨by simp [awaitedSend, port], fun _ => by simp [DeadlineFits, AgentCtx.deadline, port]⟩

theorem Stands.of_port (same : d.port = c.port) (watch : d.watch = c.watch) : c.Stands d :=
  ⟨fun active => by rwa [same], fun detached => same ▸ detached, fun _ => watch⟩

theorem Stands.of_active (active : d.port.active = true) : c.Stands d :=
  ⟨fun _ => active, fun detached => by simp [detached, Port.active] at active,
    fun inactive => by simp [active] at inactive⟩

/-- Neither the state nor the watch list changes. -/
theorem Calms.of_same (port : d.port = c.port := by rfl) (watch : d.watch = c.watch := by rfl) :
    c.Calms d :=
  ⟨.of_port port, .of_port port watch⟩

theorem Calms.refl (c : AgentCtx) : c.Calms c :=
  .of_same

/-- A wait ends, or a DETACHED agent attaches. -/
theorem Calms.of_attached (attached : d.port = .attached := by rfl) : c.Calms d :=
  ⟨.of_idle (by rw [attached]; rfl), .of_active (by rw [attached]; rfl)⟩

end AgentCtx

/-- A timeout operand gives a deadline in range, or none (R114). -/
theorem deadlineOf_fits {timeout : Word} {d : Nat} (deadline : d ∈ deadlineOf timeout) :
    1 ≤ d ∧ d ≤ 65535 := by
  unfold deadlineOf at deadline
  split at deadline
  · cases deadline
  · next nonzero =>
    obtain rfl : timeout.toNat = d := Option.some.inj deadline
    have pos : timeout.toNat ≠ 0 := fun e => nonzero (BitVec.eq_of_toNat_eq e)
    have bound := timeout.isLt
    omega

/-! ### The waits at the queues -/

/-- No wait starts at a queue but where nobody sends, and a message that comes to a queue matches no filter that waits there. -/
structure QueuesKept (s s' : State) : Prop where
  agents : ∀ a, (s.agent a).Settles (s'.agent a)
  state : ∀ q, (s'.queue q).state = (s.queue q).state ∨
    ∀ a, ∀ x ∈ (s'.agent a).awaitedSend, x.1 ≠ q
  bound : ∀ q, ∀ b ∈ (s'.queue q).bound, b ∈ (s.queue q).bound ∨ (s'.queue q).receivers = []
  receivers : ∀ q, ∀ r ∈ (s'.queue q).receivers, r ∈ (s.queue q).receivers
  messages : ∀ q, ∀ d ∈ (s'.queue q).messages,
    d ∈ (s.queue q).messages ∨ ∀ r ∈ (s'.queue q).receivers, r.accepts d.msg = false

/-- No pending SEND finds room that it did not find before. -/
structure QueuesCalm (s s' : State) : Prop extends QueuesKept s s' where
  room : ∀ a, ∀ x ∈ (s'.agent a).awaitedSend, s'.canAdmit x.1 = true → s.canAdmit x.1 = true

section Queues

variable {s u s' : State}

/-- The later of two events is given first: it says what the earlier ends in. -/
theorem QueuesKept.after (later : QueuesKept u s') (earlier : QueuesKept s u) :
    QueuesKept s s' where
  agents a := (earlier.agents a).trans (later.agents a)
  state q := by
    rcases later.state q with same | nobody
    · rcases earlier.state q with same' | nobody
      · exact .inl (same.trans same')
      · exact .inr fun a x sends => nobody a x ((later.agents a).sends x sends)
    · exact .inr nobody
  bound q b bound := by
    rcases later.bound q b bound with bound | nobody
    · refine (earlier.bound q b bound).imp id fun nobody =>
        List.eq_nil_iff_forall_not_mem.mpr fun r mem => ?_
      simpa [nobody] using later.receivers q r mem
    · exact .inr nobody
  receivers q r mem := earlier.receivers q r (later.receivers q r mem)
  messages q d mem := by
    rcases later.messages q d mem with mem | unwanted
    · exact (earlier.messages q d mem).imp id fun unwanted r mem =>
        unwanted r (later.receivers q r mem)
    · exact .inr unwanted

theorem QueuesCalm.after (later : QueuesCalm u s') (earlier : QueuesCalm s u) :
    QueuesCalm s s' where
  toQueuesKept := later.toQueuesKept.after earlier.toQueuesKept
  room a x sends room :=
    earlier.room a x ((later.agents a).sends x sends) (later.room a x sends room)

theorem QueuesKept.blockedLaw (kept : QueuesKept s s') (blocked : BlockedLaw s) :
    BlockedLaw s' := by
  intro a x sends
  obtain ⟨opened, rest⟩ := blocked a x ((kept.agents a).sends x sends)
  refine ⟨?_, rest⟩
  rcases kept.state x.1 with same | nobody
  · rwa [same]
  · exact absurd rfl (nobody a x sends)

theorem QueuesKept.deadlineLaw (kept : QueuesKept s s') (deadlines : DeadlineLaw s) :
    DeadlineLaw s' :=
  fun a => (kept.agents a).deadline (deadlines a)

theorem QueuesKept.noMatchLaw (kept : QueuesKept s s') (noMatch : NoMatchLaw s) :
    NoMatchLaw s' := by
  intro q r mem
  obtain ⟨messages, senders⟩ := noMatch q r (kept.receivers q r mem)
  refine ⟨fun d listed => ?_, fun a x sends => senders a x ((kept.agents a).sends x sends)⟩
  rcases kept.messages q d listed with listed | unwanted
  · exact messages d listed
  · exact unwanted r mem

theorem QueuesKept.boundLaw (kept : QueuesKept s s') (law : BoundLaw s) : BoundLaw s' := by
  intro q b bound r mem
  rcases kept.bound q b bound with bound | nobody
  · exact law q b bound r (kept.receivers q r mem)
  · simp [nobody] at mem

theorem QueuesCalm.noRoomLaw (calm : QueuesCalm s s') (noRoom : NoRoomLaw s) : NoRoomLaw s' := by
  intro a x sends
  rw [Bool.eq_false_iff]
  intro room
  simpa [calm.room a x sends room] using noRoom a x ((calm.agents a).sends x sends)

theorem QueuesKept.queueLaws (kept : QueuesKept s s') (laws : QueueLaws s)
    (noRoom : NoRoomLaw s') : QueueLaws s' :=
  ⟨kept.blockedLaw laws.blocked, kept.deadlineLaw laws.deadlines, kept.noMatchLaw laws.noMatch,
    noRoom, kept.boundLaw laws.bound⟩

theorem QueuesCalm.queueLaws (calm : QueuesCalm s s') (laws : QueueLaws s) : QueueLaws s' :=
  calm.toQueuesKept.queueLaws laws (calm.noRoomLaw laws.noRoom)

/-- The test of admission passes in no more cases when the queue holds no less and there is no more room (R58). -/
theorem canAdmit_of_canAdmit {q : QueueId} (state : (s'.queue q).state = (s.queue q).state)
    (held : (s.queue q).held ≤ (s'.queue q).held) (unreserved : s'.unreserved ≤ s.unreserved)
    (room : s'.canAdmit q = true) : s.canAdmit q = true := by
  obtain ⟨lim, opened, capacity, slot⟩ := (canAdmit_iff s' q).mp room
  exact (canAdmit_iff s q).mpr ⟨lim, state ▸ opened, by omega, by omega⟩

/-- No message comes or goes at the queue, and no party comes but a bound receiver where nobody waits. -/
structure Queue.Quiets (k k' : Queue) : Prop where
  state : k'.state = k.state := by rfl
  messages : k'.messages = k.messages := by rfl
  bound : ∀ b ∈ k'.bound, b ∈ k.bound ∨ k'.receivers = [] := by exact fun _ => .inl
  receivers : ∀ r ∈ k'.receivers, r ∈ k.receivers := by exact fun _ => id

theorem Queue.Quiets.refl (k : Queue) : k.Quiets k where

/-- No message comes or goes. -/
theorem QueuesCalm.of_quiets (agents : ∀ a, (s.agent a).Settles (s'.agent a))
    (queues : ∀ q, (s.queue q).Quiets (s'.queue q)) (free : s'.freeCount = s.freeCount) :
    QueuesCalm s s' where
  agents := agents
  state q := .inl (queues q).state
  bound q := (queues q).bound
  receivers q := (queues q).receivers
  messages q d mem := .inl ((queues q).messages ▸ mem)
  room a x _ := by
    have reserves : s'.queues.sum Queue.unusedReserve = s.queues.sum Queue.unusedReserve :=
      Table.sum_congr fun q => Queue.unusedReserve_congr (queues q).state (queues q).messages
    refine canAdmit_of_canAdmit (queues x.1).state (Queue.held_congr (queues x.1).messages).ge ?_
    rw [State.unreserved, State.unreserved, reserves, free]

/-- One queue record changes, and the state of it only where no pending SEND has it as target. -/
theorem QueuesKept.of_queue {q : QueueId} {k : Queue} (agents : s'.agents = s.agents)
    (queues : s'.queues = s.queues.set q k)
    (state : k.state = (s.queue q).state ∨ ∀ a, ∀ x ∈ (s.agent a).awaitedSend, x.1 ≠ q)
    (bound : ∀ b ∈ k.bound, b ∈ (s.queue q).bound)
    (receivers : ∀ r ∈ k.receivers, r ∈ (s.queue q).receivers)
    (messages : ∀ d ∈ k.messages, d ∈ (s.queue q).messages) : QueuesKept s s' := by
  have agent : ∀ a, s'.agent a = s.agent a := fun a => congrArg (·.get a) agents
  have queue := queue_of_queues_set queues
  refine ⟨fun a => agent a ▸ .of_port rfl, fun x => ?_, fun x => ?_, fun x => ?_, fun x => ?_⟩
  · rw [queue]
    split
    · next self => exact self ▸ state.imp id fun nobody a => agent a ▸ nobody a
    · exact .inl rfl
  · rw [queue]
    split
    · next self => exact fun b mem => .inl (self ▸ bound b mem)
    · exact fun b => .inl
  · rw [queue]
    split
    · next self => exact self ▸ receivers
    · exact fun r => id
  · rw [queue]
    split
    · next self => exact fun d mem => .inl (self ▸ messages d mem)
    · exact fun d => .inl

/-- One queue record changes that is no pending SEND's target, and there is no more room. -/
theorem QueuesCalm.of_untargeted {q : QueueId} {k : Queue} (agents : s'.agents = s.agents)
    (queues : s'.queues = s.queues.set q k)
    (nobody : ∀ a, ∀ x ∈ (s.agent a).awaitedSend, x.1 ≠ q)
    (bound : ∀ b ∈ k.bound, b ∈ (s.queue q).bound)
    (receivers : ∀ r ∈ k.receivers, r ∈ (s.queue q).receivers)
    (messages : ∀ d ∈ k.messages, d ∈ (s.queue q).messages)
    (unreserved : s'.unreserved ≤ s.unreserved) : QueuesCalm s s' where
  toQueuesKept := .of_queue agents queues (.inr nobody) bound receivers messages
  room a x sends := by
    have agent : s'.agent a = s.agent a := congrArg (·.get a) agents
    have same : s'.queue x.1 = s.queue x.1 := by
      rw [queue_of_queues_set queues, if_neg (nobody a x (agent ▸ sends))]
    exact canAdmit_of_canAdmit (by rw [same]) (by rw [same]) unreserved

end Queues

/-! ### The agents that hold locks and are bound to queues -/

/-- A lock or a binding goes only to an active agent, and no sweep moves on. -/
structure HoldersKept (s s' : State) : Prop where
  agents : ∀ a, (s.agent a).Stands (s'.agent a)
  holder : ∀ l, ∀ h' ∈ (s'.lock l).hold,
    (∃ h ∈ (s.lock l).hold, h.holder = h'.holder) ∨ (s'.agent h'.holder).port.active = true
  bound : ∀ q, ∀ b ∈ (s'.queue q).bound,
    b ∈ (s.queue q).bound ∨ (s'.agent b).port.active = true
  passedLock : ∀ a l, s'.engine.state.passedLock a l = true →
    s.engine.state.passedLock a l = true
  passedQueue : ∀ a q, s'.engine.state.passedQueue a q = true →
    s.engine.state.passedQueue a q = true

section Holders

variable {s u s' : State}

/-- The later of two events is given first: it says what the earlier ends in. -/
theorem HoldersKept.after (later : HoldersKept u s') (earlier : HoldersKept s u) :
    HoldersKept s s' where
  agents a := (earlier.agents a).trans (later.agents a)
  holder l h'' held := by
    rcases later.holder l h'' held with ⟨h', held', same⟩ | active
    · rcases earlier.holder l h' held' with ⟨h, held, same'⟩ | active
      · exact .inl ⟨h, held, same'.trans same⟩
      · exact .inr ((later.agents _).active (same ▸ active))
    · exact .inr active
  bound q b bound := by
    rcases later.bound q b bound with bound | active
    · exact (earlier.bound q b bound).imp id (later.agents b).active
    · exact .inr active
  passedLock a l passed := earlier.passedLock a l (later.passedLock a l passed)
  passedQueue a q passed := earlier.passedQueue a q (later.passedQueue a q passed)

theorem HoldersKept.detachedLaw (kept : HoldersKept s s') (law : DetachedLaw s) :
    DetachedLaw s' := by
  have active_ne : ∀ {p : Port}, p.active = true → p ≠ .detached := by
    rintro _ active rfl
    cases active
  obtain ⟨holders, bound, watches⟩ := law
  refine ⟨fun l h' held detached => ?_, fun q b bound' detached => ?_, fun a inactive => ?_⟩
  · rcases kept.holder l h' held with ⟨h, held, same⟩ | active
    · exact holders l h held (same ▸ (kept.agents _).detached detached)
    · exact active_ne active detached
  · rcases kept.bound q b bound' with bound' | active
    · exact bound q b bound' ((kept.agents b).detached detached)
    · exact active_ne active detached
  · have inactive' : (s'.agent a).port.active = false := by
      rcases inactive with port | port <;> rw [port] <;> rfl
    rw [(kept.agents a).watch inactive']
    refine watches a ?_
    cases port : (s.agent a).port with
    | detached => exact .inl rfl
    | retiring => exact .inr rfl
    | attached | waiting =>
      have active := (kept.agents a).active (by rw [port]; rfl)
      simp [inactive'] at active

theorem EngineState.job_of_passedLock {e : EngineState} {a : Agent} {l : LockId}
    (passed : e.passedLock a l = true) : e.job = some (.retire a) := by
  cases e with
  | idle | purge => cases passed
  | retireLocks r c =>
    obtain ⟨own, -⟩ := Bool.and_eq_true_iff.mp passed
    rw [EngineState.job, eq_of_beq own]
  | retireQueues r c => rw [EngineState.job, eq_of_beq passed]

theorem EngineState.job_of_passedQueue {e : EngineState} {a : Agent} {q : QueueId}
    (passed : e.passedQueue a q = true) : e.job = some (.retire a) := by
  cases e with
  | idle | purge | retireLocks => cases passed
  | retireQueues r c =>
    obtain ⟨own, -⟩ := Bool.and_eq_true_iff.mp passed
    rw [EngineState.job, eq_of_beq own]

/-- A sweep is in hand for a RETIRING agent (R132, R133). -/
theorem retiring_of_job (jobs : JobLaw s) {a : Agent}
    (job : s.engine.state.job = some (.retire a)) : (s.agent a).port = .retiring := by
  obtain ⟨rest, head⟩ := jobs.head job
  obtain ⟨-, ofAgent, -⟩ := jobs
  exact (ofAgent a).mp (head ▸ List.mem_cons_self)

theorem retiring_not_active {a : Agent} (retiring : (s.agent a).port = .retiring) :
    (s.agent a).port.active ≠ true := by
  rw [retiring]
  nofun

theorem HoldersKept.sweepLaw (kept : HoldersKept s s') (jobs : JobLaw s') (law : SweepLaw s) :
    SweepLaw s' := by
  obtain ⟨locks, queues⟩ := law
  refine ⟨fun l h' held => ?_, fun q b bound => ?_⟩
  · rw [Bool.eq_false_iff]
    intro passed
    rcases kept.holder l h' held with ⟨h, held, same⟩ | active
    · simpa [same, kept.passedLock _ l passed] using locks l h held
    · exact retiring_not_active (retiring_of_job jobs (EngineState.job_of_passedLock passed)) active
  · rw [Bool.eq_false_iff]
    intro passed
    rcases kept.bound q b bound with bound | active
    · simpa [kept.passedQueue _ q passed] using queues q b bound
    · exact retiring_not_active (retiring_of_job jobs (EngineState.job_of_passedQueue passed)) active

theorem HoldersKept.holderLaws (kept : HoldersKept s s') (laws : HolderLaws s) (jobs : JobLaw s') :
    HolderLaws s' :=
  ⟨kept.sweepLaw jobs laws.sweep, kept.detachedLaw laws.detached⟩

/-- Neither a lock nor the engine changes, and a binding may go. -/
theorem HoldersKept.of_agents (agents : ∀ a, (s.agent a).Stands (s'.agent a))
    (locks : s'.locks = s.locks := by rfl)
    (bound : ∀ q, ∀ b ∈ (s'.queue q).bound, b ∈ (s.queue q).bound := by exact fun _ _ => id)
    (engine : s'.engine = s.engine := by rfl) : HoldersKept s s' where
  agents := agents
  holder l h held := .inl ⟨h, by rwa [State.lock, locks] at held, rfl⟩
  bound q b mem := .inl (bound q b mem)
  passedLock a l passed := engine ▸ passed
  passedQueue a q passed := engine ▸ passed

/-- One queue record loses its binding, or keeps it. -/
theorem HoldersKept.of_queue {q : QueueId} {k : Queue} (queues : s'.queues = s.queues.set q k)
    (bound : ∀ b ∈ k.bound, b ∈ (s.queue q).bound := by exact fun _ => id)
    (agents : s'.agents = s.agents := by rfl) (locks : s'.locks = s.locks := by rfl)
    (engine : s'.engine = s.engine := by rfl) : HoldersKept s s' := by
  have agent : ∀ a, s'.agent a = s.agent a := fun a => congrArg (·.get a) agents
  refine .of_agents (fun a => agent a ▸ .of_port rfl rfl) locks (fun x => ?_) engine
  rw [queue_of_queues_set queues]
  split
  · next self => exact self ▸ bound
  · exact fun _ => id

end Holders

/-! ### Calm events -/

/-- An event that keeps both groups of laws by what it does alone. -/
structure Calm (s s' : State) : Prop where
  queues : QueuesCalm s s'
  holders : HoldersKept s s'

section Calm

variable {s u s' : State}

theorem Calm.after (later : Calm u s') (earlier : Calm s u) : Calm s s' :=
  ⟨later.queues.after earlier.queues, later.holders.after earlier.holders⟩

theorem Calm.ite {s u v : State} {p : Prop} [Decidable p] (taken : p → Calm s u)
    (skipped : ¬ p → Calm s v) : Calm s (if p then u else v) := by
  split
  · next holds => exact taken holds
  · next fails => exact skipped fails

/-- The contexts change alone. -/
theorem Calm.of_agents (agents : ∀ a, (s.agent a).Calms (s'.agent a))
    (locks : s'.locks = s.locks := by rfl) (queues : s'.queues = s.queues := by rfl)
    (free : s'.freeCount = s.freeCount := by rfl) (engine : s'.engine = s.engine := by rfl) :
    Calm s s' := by
  have queue : ∀ q, s'.queue q = s.queue q := fun q => congrArg (·.get q) queues
  exact ⟨.of_quiets (fun a => (agents a).toSettles) (fun q => queue q ▸ .refl _) free,
    .of_agents (fun a => (agents a).toStands) locks (fun q => queue q ▸ fun _ => id) engine⟩

theorem Calm.of_same (agents : s'.agents = s.agents := by rfl)
    (locks : s'.locks = s.locks := by rfl) (queues : s'.queues = s.queues := by rfl)
    (free : s'.freeCount = s.freeCount := by rfl) (engine : s'.engine = s.engine := by rfl) :
    Calm s s' := by
  have agent : ∀ a, s'.agent a = s.agent a := fun a => congrArg (·.get a) agents
  exact .of_agents (fun a => agent a ▸ .refl _) locks queues free engine

theorem Calm.refl (s : State) : Calm s s :=
  .of_same

theorem Calm.foldl {β : Type} {f : State → β → State} (each : ∀ s b, Calm s (f s b))
    (entries : List β) (s : State) : Calm s (entries.foldl f s) := by
  induction entries generalizing s with
  | nil => exact .refl s
  | cons b rest ih => exact (ih (f s b)).after (each s b)

variable (s)

theorem calm_setAgent (a : Agent) (c : AgentCtx) (calms : (s.agent a).Calms c := by exact .of_same) :
    Calm s (s.setAgent a c) := by
  refine .of_agents fun x => ?_
  rw [setAgent_agent]
  split
  · next self => exact self ▸ calms
  · exact .refl _

theorem calm_setLock (l : LockId) (k : Lock)
    (holder : ∀ h' ∈ k.hold, (∃ h ∈ (s.lock l).hold, h.holder = h'.holder) ∨
      (s.agent h'.holder).port.active = true) : Calm s (s.setLock l k) := by
  refine ⟨.of_quiets (fun _ => .of_port rfl) (fun _ => .refl _) rfl, fun _ => .of_port rfl rfl,
    fun x h' held => ?_, fun _ _ => .inl, fun _ _ => id, fun _ _ => id⟩
  rw [setLock_lock] at held
  split at held
  · next self => exact self ▸ holder h' held
  · exact .inl ⟨h', held, rfl⟩

/-- A HELD lock keeps its holder or loses it. -/
theorem calm_rehold {l : LockId} {h : Hold} (k : Lock) (held : (s.lock l).hold = some h)
    (holder : ∀ h' ∈ k.hold, h'.holder = h.holder) : Calm s (s.setLock l k) :=
  calm_setLock s l k fun h' held' => .inl ⟨h, held, (holder h' held').symm⟩

theorem calm_setQueue (q : QueueId) (k : Queue) (quiets : (s.queue q).Quiets k)
    (bound : ∀ b ∈ k.bound, b ∈ (s.queue q).bound ∨ (s.agent b).port.active = true :=
      by exact fun _ => .inl) : Calm s (s.setQueue q k) := by
  refine ⟨.of_quiets (fun _ => .of_port rfl) (fun x => ?_) rfl, fun _ => .of_port rfl rfl,
    fun _ h held => .inl ⟨h, held, rfl⟩, fun x => ?_, fun _ _ => id, fun _ _ => id⟩
  · rw [setQueue_queue]
    split
    · next self => exact self ▸ quiets
    · exact .refl _
  · rw [setQueue_queue]
    split
    · next self => exact self ▸ bound
    · exact fun _ => .inl

end Calm

end Sys2Proof.Machine

/-! The calm events, one lemma for each operation: what it does to the waits at the queues, to the room in the store and to the holders (chapters 1 to 8). -/

namespace Sys2Proof.Machine

/-! ### Contexts -/

theorem AgentCtx.awaitedSend_of_attached {c : AgentCtx} (attached : c.port = .attached) :
    c.awaitedSend = none := by
  simp [AgentCtx.awaitedSend, attached]

/-- A wait for something else than a SEND starts or goes on, with a deadline in range. -/
theorem AgentCtx.Calms.of_waiting {c c' : AgentCtx} {w : Wait} (port : c'.port = .waiting w)
    (sends : ∀ x ∈ c'.awaitedSend, x ∈ c.awaitedSend)
    (deadline : c.DeadlineFits → ∀ d ∈ w.deadline, 1 ≤ d ∧ d ≤ 65535) : c.Calms c' := by
  refine ⟨⟨sends, fun fits => ?_⟩, .of_active (by rw [port]; rfl)⟩
  simpa only [AgentCtx.DeadlineFits, AgentCtx.deadline, port] using deadline fits

variable (s : State)

/-! ### Results, notices and violations -/

theorem calm_setResult (a : Agent) (r : Result) : Calm s (s.setResult a r) :=
  calm_setAgent s a _

theorem calm_refuse (t : Agent) (c : ResCode) : Calm s (s.refuse t c) :=
  calm_setAgent s t _

theorem calm_done (t : Agent) (v : Word) : Calm s (s.done t v) :=
  calm_setAgent s t _

theorem calm_setNotice (a : Agent) (n : Notice) : Calm s (s.setNotice a n) :=
  calm_setAgent s a _

theorem calm_deliver (a : Agent) (d : Stored) : Calm s (s.deliver a d) :=
  calm_setAgent s a _

theorem calm_endWait (a : Agent) (r : Result) : Calm s (s.endWait a r) :=
  calm_setAgent s a _ .of_attached

theorem calm_recordViolation (t : Agent) (e : ViolationEvent) : Calm s (s.recordViolation t e) := by
  cases full : s.sup.capture with
  | none =>
    rw [recordViolation_empty s t e full]
    exact .after (calm_setNotice _ _ _) .of_same
  | some c =>
    rw [recordViolation_full s t e full]
    exact .of_same

theorem calm_deny (t : Agent) (c : AgentCmd) (object : Nat) : Calm s (s.deny t c object) :=
  .after (calm_recordViolation _ t _) (calm_refuse s t _)

theorem calm_reckonStoreEmpty (before : State) : Calm s (reckonStoreEmpty before s) :=
  .ite (fun _ => calm_setNotice s _ _) fun _ => .refl s

/-! ### The Lock Table -/

/-- The head waiter is ATTACHED when the lock is its own, or the lock is FREE (R15, R17). -/
theorem calm_passLock (l : LockId) (lost : Bool) : Calm s (passLock s l lost) := by
  cases queue : (s.lock l).waiters with
  | nil =>
    rw [passLock_nobody s l lost queue]
    exact calm_setLock s l _ (by simp)
  | cons w rest =>
    rw [passLock_head s l lost queue]
    have ended := calm_endWait s w (.granted lost)
    have active : ((s.endWait w (.granted lost)).agent w).port.active = true := by
      rw [endWait_eq, setAgent_agent_self]
      rfl
    refine .after (calm_setLock (s.endWait w (.granted lost)) l
      { (s.lock l).grantTo w with waiters := rest } ?_) ended
    rintro _ ⟨⟩
    exact .inr active

theorem calm_acquireNested (t : Agent) {l : LockId} {h : Hold} (held : (s.lock l).hold = some h) :
    Calm s (acquireNested s t l h) :=
  .ite (fun _ => calm_refuse s t _) fun _ =>
    .after (calm_done _ t _) (calm_rehold s _ held (by simp))

theorem calm_release (t : Agent) (l : LockId) : Calm s (release s t l) := by
  unfold release
  split
  · exact calm_refuse s t _
  · next h held =>
    exact .ite (fun _ => calm_refuse s t _) fun _ =>
      .ite (fun _ => .after (calm_done _ t _) (calm_rehold s _ held (by simp))) fun _ =>
        .after (calm_done _ t _) (calm_passLock s l false)

theorem calm_renew (t : Agent) (l : LockId) : Calm s (renew s t l) := by
  unfold renew
  split
  · exact calm_refuse s t _
  · next h held =>
    exact .ite (fun _ => calm_refuse s t _) fun _ =>
      .after (calm_done _ t _) (calm_rehold s _ held (by simp))

theorem calm_lockConfig (l : LockId) : Calm s (lockConfig s l) :=
  .ite (fun _ => .of_same) fun _ =>
    .after (u := s.setLock l { s.lock l with
        leaseLength := s.supOperand 1, useMask := s.supOperand 2, broken := false })
      .of_same (calm_setLock s l _ fun h held => .inl ⟨h, held, rfl⟩)

theorem calm_tickLock (l : LockId) : Calm s (tickLock s l) := by
  unfold tickLock
  split
  · exact .refl s
  · next h held =>
    split
    · exact .refl s
    · exact .ite (fun _ => calm_rehold s _ held (by simp)) fun _ =>
        .after (calm_setNotice _ _ _) (calm_passLock s l true)

theorem calm_lockTableTick : Calm s (lockTableTick s) :=
  .ite (fun _ => .refl s) fun _ => .after (.foldl calm_tickLock _ _) .of_same

theorem calm_acquireWait (t : Agent) (l : LockId) (h : Hold) : Calm s (acquireWait s t l h) :=
  .ite (fun _ => calm_refuse s t _) fun _ => .ite (fun _ => calm_refuse s t _) fun _ =>
    .after (calm_setAgent _ t _ (.of_waiting rfl (by simp [AgentCtx.awaitedSend])
        fun _ _ => deadlineOf_fits))
      (calm_setLock s l _ fun h held => .inl ⟨h, held, rfl⟩)

section Attached

variable {s} {t : Agent} (attached : (s.agent t).port = .attached)
include attached

theorem active_of_attached : (s.agent t).port.active = true := by
  rw [attached]
  rfl

theorem calm_acquireFree (l : LockId) : Calm s (acquireFree s t l) := by
  have granted : Calm s (s.setLock l ((s.lock l).grantTo t)) :=
    calm_setLock s l _ (by rintro _ ⟨⟩; exact .inr (active_of_attached attached))
  exact .after (calm_setResult _ t _) granted

theorem calm_acquire (l : LockId) : Calm s (acquire s t l) := by
  unfold acquire
  split
  · exact calm_refuse s t _
  · refine .ite (fun _ => calm_deny s t _ _) fun _ => ?_
    split
    · exact calm_acquireFree attached l
    · next h held =>
      refine .ite (fun _ => calm_acquireNested s t held) fun _ => ?_
      split
      · exact calm_refuse s t _
      · exact calm_acquireWait s t l h

/-! ### The commands of an ATTACHED agent that bind and watch -/

/-- A binding comes where nobody waits (R44). -/
theorem calm_bindQueue (q : QueueId) : Calm s (bindQueue s t q) := by
  refine .ite (fun _ => calm_deny s t _ _) fun _ => ?_
  split
  · exact calm_refuse s t _
  · exact calm_refuse s t _
  · split
    · exact .ite (fun _ => calm_done s t _) fun _ => calm_refuse s t _
    · refine .ite (fun nobody => .after (calm_done _ t _) ?_) fun _ => calm_refuse s t _
      have nobody : (s.queue q).receivers = [] := List.isEmpty_iff.mp nobody
      refine calm_setQueue s q _ { bound := fun b _ => .inr nobody } ?_
      rintro _ ⟨⟩
      exact .inr (active_of_attached attached)

theorem calm_setWatch (k : Fin 4) (x : Option QueueId) : Calm s (setWatch s t k x) :=
  .after (calm_done _ t _)
    (calm_setAgent s t _ ⟨.of_port rfl, .of_active (active_of_attached attached)⟩)

theorem calm_watchQueue (q : QueueId) : Calm s (watchQueue s t q) := by
  refine .ite (fun _ => calm_deny s t _ _) fun _ => .ite (fun _ => calm_refuse s t _) fun _ => ?_
  split
  · exact calm_refuse s t _
  · exact calm_setWatch attached _ _

theorem calm_unwatchQueue (q : QueueId) : Calm s (unwatchQueue s t q) := by
  unfold unwatchQueue
  split
  · exact calm_refuse s t _
  · exact calm_setWatch attached _ _

end Attached

theorem calm_unbindQueue (t : Agent) (q : QueueId) : Calm s (unbindQueue s t q) :=
  .ite
    (fun _ => .after (calm_done _ t _)
      (calm_setQueue s q { s.queue q with bound := none } { bound := nofun } nofun))
    fun _ => calm_deny s t _ _

/-! ### The Agent Ports -/

theorem calm_leaveWaitList (a : Agent) : Calm s (s.leaveWaitList a) := by
  unfold State.leaveWaitList
  split
  · split
    · exact calm_setLock s _ _ fun h held => .inl ⟨h, held, rfl⟩
    · exact .of_same
    · exact calm_setQueue s _ _ { receivers := fun _ => List.mem_of_mem_filter }
  · exact .refl s

theorem leaveWaitList_agent (a x : Agent) : (s.leaveWaitList a).agent x = s.agent x :=
  congrArg (·.get x) (leaveWaitList_frame s a).1

theorem calm_attach (t : Agent) : Calm s (attach s t) := by
  unfold attach
  split
  · exact .ite (fun _ => calm_setAgent s t _ .of_attached) fun _ => calm_deny s t _ _
  · exact calm_done s t _

theorem calm_cancel (t : Agent) : Calm s (cancel s t) := by
  unfold cancel
  split
  · exact .after (calm_setAgent _ t _ .of_attached) (calm_leaveWaitList s t)
  · exact calm_refuse s t _

theorem calm_tickPort (a : Agent) : Calm s (tickPort s a) := by
  unfold tickPort
  split
  · next w port =>
    split
    · exact .refl s
    · next r deadline =>
      refine .ite (fun more => calm_setAgent s a _ (.of_waiting rfl ?_ fun fits => ?_)) fun _ =>
        .after (calm_endWait _ a _) (calm_leaveWaitList s a)
      · simp [AgentCtx.awaitedSend, port]
      · rintro _ ⟨⟩
        have fits := fits r (by simp [AgentCtx.deadline, port, deadline])
        omega
  · exact .refl s

theorem calm_agentPortsTick : Calm s (agentPortsTick s) :=
  .ite (fun _ => .refl s) fun _ => .after (.foldl calm_tickPort _ _) .of_same

/-! ### Hand-off and admission -/

theorem calm_handOff (q : QueueId) (m : Message) (r : Receiver) : Calm s (s.handOff q m r) :=
  .after (calm_endWait _ r.agent _) (.after (calm_deliver _ r.agent _)
    (calm_setQueue s q _ { receivers := fun _ => List.mem_of_mem_filter }))

/-- An admission takes a slot of the queue's own reserve or an unreserved one (R58, R59). -/
theorem admit_unreserved_le (q : QueueId) (m : Message) :
    (s.admitMessage q m).unreserved ≤ s.unreserved := by
  obtain ⟨-, free, -⟩ := admit_frame s q m
  have queues := admit_queues s q m
  rw [State.unreserved, State.unreserved, free, queues]
  have sum := Table.sum_set s.queues q { s.queue q with
    nextSeq := (s.queue q).nextSeq + 1
    messages := placeMessage ((s.queue q).stamp m) (s.queue q).messages } Queue.unusedReserve
  have less : (s.queue q).unusedReserve ≤ Queue.unusedReserve { s.queue q with
      nextSeq := (s.queue q).nextSeq + 1
      messages := placeMessage ((s.queue q).stamp m) (s.queue q).messages } + 1 :=
    Queue.unusedReserve_le_succ rfl (Queue.held_of_placed rfl).symm
  rw [State.queue] at less
  rw [State.queue] at sum ⊢
  omega

/-- A message is admitted that no waiting receiver takes (R56, R58). -/
theorem calm_admitMessage {q : QueueId} {m : Message}
    (nobody : (s.queue q).firstReceiver m = none) : Calm s (s.admitMessage q m) := by
  obtain ⟨locks, -, -, -, engine, -⟩ := admit_frame s q m
  have queue := queue_of_queues_set (admit_queues s q m)
  have contexts : ∀ a, (s.agent a).Calms ((s.admitMessage q m).agent a) := fun a => by
    rw [admit_agent]
    exact .of_same
  have unwanted : ∀ r ∈ (s.queue q).receivers, r.accepts m = false := by
    simpa [Queue.firstReceiver, List.find?_eq_none] using nobody
  refine ⟨⟨⟨fun a => (contexts a).toSettles, fun x => ?_, fun x => ?_, fun x => ?_, fun x => ?_⟩,
      fun a x _ => canAdmit_of_canAdmit ?_ ?_ (admit_unreserved_le s q m)⟩,
    .of_agents (fun a => (contexts a).toStands) locks (fun x => ?_) engine⟩
  · rw [queue]
    split
    · next self => exact .inl (by rw [self])
    · exact .inl rfl
  · rw [queue]
    split
    · next self => exact self ▸ fun b => .inl
    · exact fun b => .inl
  · rw [queue]
    split
    · next self => exact self ▸ fun r => id
    · exact fun r => id
  · rw [queue]
    split
    · next self =>
      subst self
      intro d mem
      rcases List.mem_cons.mp ((placeMessage_perm _ _).mem_iff.mp mem) with rfl | old
      · exact .inr unwanted
      · exact .inl old
    · exact fun d => .inl
  · rw [queue]
    split
    · next self => rw [self]
    · rfl
  · rw [queue]
    split
    · next self =>
      rw [self]
      exact (Queue.held_of_placed (k := s.queue q) rfl).ge.trans' (Nat.le_succ _)
    · rfl
  · rw [queue]
    split
    · next self => exact self ▸ fun b => id
    · exact fun b => id

theorem calm_completeSender (a : Agent) (seq : Word) : Calm s (s.completeSender a seq) :=
  .after (calm_endWait _ a _) .of_same

theorem calm_serveSender (a : Agent) : Calm s (serveSender s a) := by
  unfold serveSender
  split
  · split
    · split
      · exact .after (calm_completeSender _ a _) (calm_handOff s _ _ _)
      · next nobody =>
        exact .ite (fun _ => .after (calm_completeSender _ a _) (calm_admitMessage s nobody))
          fun _ => .refl s
    · exact .refl s
  · exact .refl s

theorem calm_admissionPass : Calm s (admissionPass s) :=
  .foldl calm_serveSender _ s

theorem calm_takeFromSender (t : Agent) (q : QueueId) (a : Agent) (m : Message) :
    Calm s (takeFromSender s t q a m) :=
  .after (calm_setResult _ t _) (.after (calm_deliver _ t _)
    (.after (calm_completeSender _ a _)
      (calm_setQueue s q { s.queue q with nextSeq := (s.queue q).nextSeq + 1 } {})))

/-! ### The waiting parties, the bindings and the jobs -/

theorem calm_endWaiters (q : QueueId) (c : ResCode) : Calm s (endWaiters s q c) :=
  .after (.foldl (fun s a => calm_endWait s a _) _ _)
    (.after (calm_setQueue _ q _ { bound := fun _ _ => .inr rfl, receivers := nofun }) .of_same)

theorem queuesCalm_dropBindings (a : Agent) : QueuesCalm s (s.dropBindings a) := by
  refine .of_quiets (fun _ => .of_port rfl) (fun q => ?_) rfl
  rw [dropBindings_queue]
  split
  · exact { bound := nofun }
  · exact .refl _

/-- The engine starts at the first object of a job, so it has passed none. -/
theorem engineStart_passed (jobs : List Job) (a : Agent) :
    (∀ l, (engineStart jobs).passedLock a l = false) ∧
    ∀ q, (engineStart jobs).passedQueue a q = false := by
  rcases jobs with _ | ⟨j, rest⟩
  · exact ⟨fun _ => rfl, fun _ => rfl⟩
  · cases j with
    | retire r => simp [engineStart, Job.firstState, EngineState.passedLock, EngineState.passedQueue]
    | purge q => exact ⟨fun _ => rfl, fun _ => rfl⟩

/-- The engine stays where it is, or starts on a job. -/
theorem Calm.of_engine {s s' : State}
    (engine : s'.engine.state = s.engine.state ∨ ∃ jobs, s'.engine.state = engineStart jobs)
    (agents : s'.agents = s.agents := by rfl) (locks : s'.locks = s.locks := by rfl)
    (queues : s'.queues = s.queues := by rfl) (free : s'.freeCount = s.freeCount := by rfl) :
    Calm s s' := by
  have agent : ∀ a, s'.agent a = s.agent a := fun a => congrArg (·.get a) agents
  have queue : ∀ q, s'.queue q = s.queue q := fun q => congrArg (·.get q) queues
  refine ⟨.of_quiets (fun a => agent a ▸ .of_port rfl) (fun q => queue q ▸ .refl _) free,
    fun a => agent a ▸ .of_port rfl rfl, fun l h held => .inl ⟨h, ?_, rfl⟩,
    fun q => queue q ▸ fun _ => .inl, fun a l passed => ?_, fun a q passed => ?_⟩
  · rwa [State.lock, locks] at held
  · rcases engine with stays | ⟨jobs, starts⟩
    · rwa [stays] at passed
    · simp [starts, (engineStart_passed jobs a).1] at passed
  · rcases engine with stays | ⟨jobs, starts⟩
    · rwa [stays] at passed
    · simp [starts, (engineStart_passed jobs a).2] at passed

theorem calm_addJob (j : Job) : Calm s (s.addJob j) := by
  refine .of_engine ?_
  cases jobs : s.engine.jobs with
  | nil => exact .inr ⟨[j], by simp [State.addJob, jobs, engineStart]⟩
  | cons k rest => exact .inl (by simp [State.addJob, jobs])

theorem calm_endJob : Calm s s.endJob :=
  .after (calm_setNotice _ _ _) (.of_engine (.inr ⟨s.engine.jobs.tail, rfl⟩))

/-! ### The registers, the time base and the pins -/

theorem calm_writeAgentReg (t : Agent) {r : AgentReg} (v : Word) (plain : r ≠ .cmd) :
    Calm s (writeAgentReg s t r v) := by
  cases r with
  | cmd => exact absurd rfl plain
  | operand | nen | shdr | slabel | stg => exact calm_setAgent s t _
  | _ => exact .refl s

theorem calm_writeSupReg {r : SupReg} (v : Word) (plain : r ≠ .scmd) :
    Calm s (writeSupReg s r v) := by
  cases r with
  | scmd => exact absurd rfl plain
  | _ => exact .of_same

theorem calm_timeEvent (f : TimeBase → TimeBase) : Calm s (timeEvent s f) :=
  .ite (fun _ => .refl s) fun _ => .of_same

theorem calm_releaseReset (straps : Agent) : Calm s (releaseReset s straps) :=
  .ite (fun _ => .of_same) fun _ => .refl s

end Sys2Proof.Machine

/-! The events that keep the laws of the queues and of the holders because the part keeps its other laws: SEND and RECEIVE, the admission passes, the queues that open and close, DETACH and the sweeps. -/

namespace Sys2Proof.Machine

/-! ### Events in sequence -/

/-- The laws of the queues are kept, and a lock or a binding goes only to an active agent. -/
structure Keeps (s s' : State) : Prop where
  queues : QueueLaws s → QueueLaws s'
  holders : HoldersKept s s'

/-- Slots may have come free, and the admission pass is still to be walked (R64). -/
structure Frees (s s' : State) : Prop where
  queues : QueuesKept s s'
  holders : HoldersKept s s'

section Sequence

variable {s u s' : State}

theorem Calm.keeps (calm : Calm s s') : Keeps s s' :=
  ⟨calm.queues.queueLaws, calm.holders⟩

theorem Keeps.after (later : Keeps u s') (earlier : Keeps s u) : Keeps s s' :=
  ⟨fun laws => later.queues (earlier.queues laws), later.holders.after earlier.holders⟩

/-- A calm event follows. -/
theorem Keeps.calm (earlier : Keeps s u) (later : Calm u s') : Keeps s s' :=
  later.keeps.after earlier

theorem Keeps.ite {s u v : State} {p : Prop} [Decidable p] (taken : p → Keeps s u)
    (skipped : ¬ p → Keeps s v) : Keeps s (if p then u else v) := by
  split
  · next holds => exact taken holds
  · next fails => exact skipped fails

theorem Calm.frees (calm : Calm s s') : Frees s s' :=
  ⟨calm.queues.toQueuesKept, calm.holders⟩

theorem Frees.after (later : Frees u s') (earlier : Frees s u) : Frees s s' :=
  ⟨later.queues.after earlier.queues, later.holders.after earlier.holders⟩

end Sequence

/-! ### The admission pass (R64 to R66, R69) -/

/-- R69 for one agent: its pending SEND, if it has one, finds no room. -/
def State.NoRoomFor (s : State) (a : Agent) : Prop :=
  ∀ x ∈ (s.agent a).awaitedSend, s.canAdmit x.1 = false

section Pass

variable {s s' : State} {a : Agent}

theorem QueuesCalm.noRoomFor (calm : QueuesCalm s s') (none : s.NoRoomFor a) : s'.NoRoomFor a := by
  intro x sends
  rw [Bool.eq_false_iff]
  intro room
  simpa [calm.room a x sends room] using none x ((calm.agents a).sends x sends)

theorem noRoomFor_completeSender (s : State) (a : Agent) (seq : Word) :
    (s.completeSender a seq).NoRoomFor a := by
  intro x sends
  rw [completeSender_agent, AgentCtx.awaitedSend_of_attached (if_pos rfl)] at sends
  cases sends

/-- The walk leaves an entry only where it finds no room for it (R65). -/
theorem noRoomFor_serveSender (s : State) (a : Agent) : (serveSender s a).NoRoomFor a := by
  unfold serveSender
  split
  · next w port =>
    split
    · next q m want =>
      split
      · exact noRoomFor_completeSender _ a _
      · split
        · exact noRoomFor_completeSender _ a _
        · next full =>
          intro x sends
          obtain rfl : (q, m) = x := by simpa [AgentCtx.awaitedSend, port, want] using sends
          exact Bool.eq_false_iff.mpr full
    · next other =>
      intro x sends
      obtain ⟨deadline, port'⟩ := awaitedSend_eq_some sends
      rw [port] at port'
      cases port'
      exact absurd rfl (other _ _)
  · next idle =>
    intro x sends
    obtain ⟨deadline, port⟩ := awaitedSend_eq_some sends
    exact absurd port (idle _)

theorem noRoomFor_foldl (entries : List Agent) (s : State) (a : Agent)
    (served : a ∈ entries ∨ s.NoRoomFor a) : (entries.foldl serveSender s).NoRoomFor a := by
  induction entries generalizing s with
  | nil => exact served.resolve_left List.not_mem_nil
  | cons b rest ih =>
    refine ih (serveSender s b) ?_
    rcases served with mem | none
    · rcases List.mem_cons.mp mem with rfl | mem
      · exact .inr (noRoomFor_serveSender s a)
      · exact .inl mem
    · exact .inr ((calm_serveSender s b).queues.noRoomFor none)

/-- After the pass no sender waits that could be admitted, for each stands in the list that the pass walks (R69). -/
theorem noRoomLaw_admissionPass (wait : WaitLaw s) : NoRoomLaw (admissionPass s) := by
  intro a x sends
  obtain ⟨-, -, -, -, -, -, senders, -⟩ := wait
  have waits : x ∈ (s.agent a).awaitedSend := ((calm_admissionPass s).queues.agents a).sends x sends
  have listed : a ∈ s.senderWait := (senders a).mpr (by rw [waits]; rfl)
  exact noRoomFor_foldl s.senderWait s a (.inl listed) x sends

theorem Frees.admissionPass (frees : Frees s s') (wait : WaitLaw s') :
    Keeps s (admissionPass s') where
  queues laws :=
    ((calm_admissionPass s').frees.after frees).queues.queueLaws laws (noRoomLaw_admissionPass wait)
  holders := (calm_admissionPass s').holders.after frees.holders

end Pass

/-! ### Slots that come free -/

section Freed

variable {s : State} {q : QueueId}

theorem frees_takeMessage (t : Agent) (p : Stored → Bool) (d : Stored) :
    Frees s (takeMessage s t q p d) := by
  have taken : Frees s (State.setQueue { s with freeCount := s.freeCount + 1 } q
      { s.queue q with messages := (s.queue q).messages.eraseP p }) :=
    ⟨.of_queue rfl rfl (.inl rfl) (fun _ => id) (fun _ => id) fun _ => List.mem_of_mem_eraseP,
      .of_queue rfl⟩
  exact ((calm_setResult _ t _).after (calm_deliver _ t d)).frees.after taken

theorem frees_discardHead : Frees s (discardHead s q) := by
  cases messages : (s.queue q).messages with
  | nil =>
    rw [discardHead_nil messages]
    exact (Calm.refl s).frees
  | cons d rest =>
    rw [discardHead_cons messages]
    exact ⟨.of_queue rfl rfl (.inl rfl) (fun _ => id) (fun _ => id)
      fun _ mem => messages ▸ List.mem_cons_of_mem d mem, .of_queue rfl⟩

section Untargeted

variable (nobody : ∀ a, ∀ x ∈ (s.agent a).awaitedSend, x.1 ≠ q)
include nobody

theorem frees_closeRecord : Frees s (closeRecord s q) :=
  ⟨.of_queue rfl rfl (.inr nobody) nofun (fun _ => id) fun _ => id, .of_queue rfl nofun⟩

theorem frees_endPurge (lim : Limits) (closeAfter : Bool) :
    Frees s (endPurge s q lim closeAfter) := by
  unfold endPurge
  split
  · exact frees_closeRecord nobody
  · exact ⟨.of_queue rfl rfl (.inr nobody) (fun _ => id) (fun _ => id) fun _ => id, .of_queue rfl⟩

/-- The state of a queue that is no target changes, and its unused reserve does not shrink. -/
theorem calm_setQueue_state {x : QueueState}
    (reserve : (s.queue q).unusedReserve ≤ Queue.unusedReserve { s.queue q with state := x }) :
    Calm s (s.setQueue q { s.queue q with state := x }) := by
  refine ⟨.of_untargeted rfl rfl nobody (fun _ => id) (fun _ => id) (fun _ => id) ?_,
    .of_queue rfl⟩
  have sum := Table.sum_set s.queues q { s.queue q with state := x } Queue.unusedReserve
  rw [State.queue] at reserve sum
  rw [State.unreserved, State.unreserved, setQueue_freeCount, setQueue_queues, State.queue]
  omega

theorem calm_startPurge {lim : Limits} (opened : (s.queue q).state = .opened lim)
    (closeAfter : Bool) : Calm s (startPurge s q lim closeAfter) := by
  refine .after (calm_addJob _ _) (calm_setQueue_state nobody ?_)
  rw [Queue.unusedReserve_of_opened opened, Queue.unusedReserve_of_purging rfl]
  rfl

end Untargeted

/-- A pending SEND has an OPEN queue as target (R33). -/
theorem untargeted_of_not_opened (blocked : BlockedLaw s)
    (closed : ∀ lim, (s.queue q).state ≠ .opened lim) :
    ∀ a, ∀ x ∈ (s.agent a).awaitedSend, x.1 ≠ q := by
  rintro a x sends rfl
  obtain ⟨opened, -⟩ := blocked a x sends
  split at opened
  · next lim state => exact closed lim state
  · cases opened

theorem waitsAtQueue_of_awaitedSend {a : Agent} {x : QueueId × Message}
    (sends : (s.agent a).awaitedSend = some x) : (s.agent a).waitsAtQueue x.1 = true := by
  obtain ⟨deadline, port⟩ := awaitedSend_eq_some sends
  simp [AgentCtx.waitsAtQueue, port]

/-- No pending SEND has the queue as target whose waits have ended (R40). -/
theorem endWaiters_untargeted (wait : WaitLaw s) (c : ResCode) :
    ∀ a, ∀ x ∈ ((endWaiters s q c).agent a).awaitedSend, x.1 ≠ q := by
  rintro a x sends rfl
  have before := waitsAtQueue_of_awaitedSend
    (((calm_endWaiters s x.1 c).queues.agents a).sends x sends)
  rw [endWaiters_eq_waitersEnded s _ c wait, AgentCtx.awaitedSend_of_attached
    (by rw [waitersEnded_port, if_pos before])] at sends
  cases sends

end Freed

/-! ### SEND (chapter 3) -/

section Send

variable {s : State} {t : Agent} {q : QueueId}

/-- The SEND that is left waiting has found neither a receiver nor room (R61, R62). -/
theorem keeps_sendBlocked {lim : Limits} (opened : (s.queue q).state = .opened lim) (mode : Mode)
    {m : Message} (source : m.source = t) (length : m.payload.length ≤ 8)
    (nobody : (s.queue q).firstReceiver m = none) (full : s.canAdmit q = false) :
    Keeps s (sendBlocked s t q mode m) := by
  cases mode with
  | nowait => exact (calm_refuse s t _).keeps
  | wait =>
    refine .ite (fun _ => (calm_refuse s t _).keeps) fun _ => ?_
    rw [startWait_eq]
    set u := State.setAgent { s with senderWait := s.senderWait ++ [t] } t _ with waiting
    have queue : ∀ x, u.queue x = s.queue x := fun _ => rfl
    have room : ∀ x, u.canAdmit x = s.canAdmit x := fun _ => rfl
    have context : ∀ a, a ≠ t → u.agent a = s.agent a := fun a other =>
      setAgent_agent_ne _ _ _ other
    have sends : ∀ a, ∀ x ∈ (u.agent a).awaitedSend,
        (a = t ∧ x = (q, m)) ∨ x ∈ (s.agent a).awaitedSend := fun a x sends => by
      by_cases self : a = t
      · subst self
        rw [waiting, setAgent_agent_self] at sends
        exact .inl ⟨rfl, (Option.some.inj sends).symm⟩
      · exact .inr (context a self ▸ sends)
    have unwanted : ∀ r ∈ (s.queue q).receivers, r.accepts m = false := by
      simpa [Queue.firstReceiver, List.find?_eq_none] using nobody
    refine ⟨fun laws => ⟨fun a x waits => ?_, fun a d due => ?_, fun x r mem => ?_,
      fun a x waits => ?_, laws.bound⟩, .of_agents fun a => ?_⟩
    · rcases sends a x waits with ⟨rfl, rfl⟩ | before
      · exact ⟨by rw [queue, opened], source, length⟩
      · exact laws.blocked a x before
    · by_cases self : a = t
      · subst self
        rw [waiting, setAgent_agent_self] at due
        exact deadlineOf_fits due
      · exact laws.deadlines a d (context a self ▸ due)
    · obtain ⟨messages, senders⟩ := laws.noMatch x r mem
      refine ⟨messages, fun a y waits here => ?_⟩
      rcases sends a y waits with ⟨rfl, rfl⟩ | before
      · subst here
        exact unwanted r mem
      · exact senders a y before here
    · rw [room]
      rcases sends a x waits with ⟨rfl, rfl⟩ | before
      · exact full
      · exact laws.noRoom a x before
    · by_cases self : a = t
      · subst self
        exact .of_active (by rw [waiting, setAgent_agent_self]; rfl)
      · exact .of_port (by rw [context a self]) (by rw [context a self])

theorem keeps_sendOffer {lim : Limits} (opened : (s.queue q).state = .opened lim) (mode : Mode)
    {m : Message} (source : m.source = t) (length : m.payload.length ≤ 8) :
    Keeps s (sendOffer s t q mode m) := by
  unfold sendOffer
  split
  · exact (Calm.after (calm_done _ t _) (calm_handOff s q m _)).keeps
  · next nobody =>
    exact .ite (fun _ => (Calm.after (calm_done _ t _) (calm_admitMessage s nobody)).keeps)
      fun full => keeps_sendBlocked opened mode source length nobody (Bool.eq_false_iff.mpr full)

theorem keeps_send (t : Agent) (q : QueueId) : Keeps s (send s t q) := by
  unfold send
  split
  · exact (calm_refuse s t _).keeps
  · next mode _ =>
    refine .ite (fun _ => (calm_refuse s t _).keeps) fun inRange =>
      .ite (fun _ => (calm_deny s t _ _).keeps) fun _ => ?_
    split
    · exact (calm_refuse s t _).keeps
    · exact (calm_refuse s t _).keeps
    · next lim opened =>
      have room : (s.agent t).staging.length.toNat ≤ 8 :=
        (Staging.inRange_iff.mp (by simpa using inRange)).1
      exact (keeps_sendOffer opened mode rfl (capture_payload_length room ▸ room)).calm
        (calm_reckonStoreEmpty _ s)

end Send

/-! ### RECEIVE (chapter 4) -/

section Receive

variable {s : State} {t : Agent} {q : QueueId}

/-- The RECEIVE that is left waiting has found no message and no sender, and the queue is bound to no other agent (R74, R79, R80). -/
theorem keeps_receiveBlocked (wait : WaitLaw s) (own : ∀ b ∈ (s.queue q).bound, b = t)
    (mode : Mode) {label mask : Word}
    (nothing : ∀ d ∈ (s.queue q).messages, labelMatches label mask d.msg = false)
    (nobody : s.firstSender q label mask = none) :
    Keeps s (receiveBlocked s t q mode label mask) := by
  cases mode with
  | nowait => exact (calm_refuse s t _).keeps
  | wait =>
    refine .ite (fun _ => (calm_refuse s t _).keeps) fun _ => ?_
    rw [startWait_eq]
    set entry : Receiver := { agent := t, label := label, mask := mask }
    set listed := s.setQueue q { s.queue q with receivers := (s.queue q).receivers ++ [entry] }
      with joins
    set u := listed.setAgent t _ with waiting
    have queue : ∀ x, u.queue x = if x = q then
        { s.queue q with receivers := (s.queue q).receivers ++ [entry] } else s.queue x := fun x =>
      setQueue_queue s q _ x
    have settles : ∀ a, (s.agent a).Settles (u.agent a) := fun a => by
      rw [waiting, setAgent_agent]
      split
      · exact (AgentCtx.Calms.of_waiting rfl (by simp [AgentCtx.awaitedSend])
          fun _ _ => deadlineOf_fits).toSettles
      · exact .of_port rfl
    have record : ∀ x, (u.queue x).state = (s.queue x).state ∧
        (u.queue x).messages = (s.queue x).messages ∧ (u.queue x).bound = (s.queue x).bound := by
      intro x
      rw [queue]
      split
      · next here => subst here; exact ⟨rfl, rfl, rfl⟩
      · exact ⟨rfl, rfl, rfl⟩
    have entries : ∀ x, ∀ r ∈ (u.queue x).receivers,
        (x = q ∧ r = entry) ∨ r ∈ (s.queue x).receivers := fun x r mem => by
      rw [queue] at mem
      split at mem
      · next here =>
        subst here
        exact (List.mem_append.mp mem).symm.imp (fun new => ⟨rfl, List.mem_singleton.mp new⟩) id
      · exact .inr mem
    have reserves : u.unreserved = s.unreserved := (unreserved_congr rfl rfl).trans
      (unreserved_setQueue_of_same s (Queue.unusedReserve_congr rfl rfl))
    have ⟨_, _, _, _, _, _, senders, _⟩ := wait
    refine ⟨fun laws => ⟨fun a x waits => ?_, fun a => (settles a).deadline (laws.deadlines a),
      fun x r mem => ?_, fun a x waits => ?_, fun x b bound r mem => ?_⟩, .of_agents (fun a => ?_)
      rfl fun x => by rw [(record x).2.2]; exact fun _ => id⟩
    · rw [(record x.1).1]
      exact laws.blocked a x ((settles a).sends x waits)
    · rw [(record x).2.1]
      rcases entries x r mem with ⟨rfl, rfl⟩ | before
      · refine ⟨nothing, fun a y waits here => ?_⟩
        obtain ⟨q', m⟩ := y
        subst here
        have sends := (settles a).sends _ waits
        exact Bool.eq_false_iff.mpr (firstSender_eq_none_iff.mp nobody a
          ((senders a).mpr (by rw [sends]; rfl)) m sends)
      · obtain ⟨messages, waiters⟩ := laws.noMatch x r before
        exact ⟨messages, fun a y waits => waiters a y ((settles a).sends y waits)⟩
    · rw [Bool.eq_false_iff]
      intro room
      obtain ⟨state, messages, -⟩ := record x.1
      have before := canAdmit_of_canAdmit state (Queue.held_congr messages).ge reserves.le room
      simpa [before] using laws.noRoom a x ((settles a).sends x waits)
    · rw [(record x).2.2] at bound
      rcases entries x r mem with ⟨rfl, rfl⟩ | before
      · exact (own b bound).symm
      · exact laws.bound x b bound r before
    · rw [waiting, setAgent_agent]
      split
      · exact .of_active rfl
      · exact .of_port rfl rfl

theorem keeps_receiveSearch (wait : WaitLaw s) (own : ∀ b ∈ (s.queue q).bound, b = t)
    (mode : Mode) (label mask : Word) :
    Keeps s (receiveSearch s t q mode label mask) := by
  unfold receiveSearch
  split
  · exact (frees_takeMessage t _ _).admissionPass (easing_takeMessage wait t q _ _).wait
  · next nothing =>
    split
    · exact (calm_takeFromSender s t q _ _).keeps
    · next nobody =>
      exact keeps_receiveBlocked wait own mode (by simpa [List.find?_eq_none] using nothing) nobody

theorem keeps_receive (wait : WaitLaw s) (t : Agent) (q : QueueId) :
    Keeps s (receive s t q) := by
  unfold receive
  split
  · exact (calm_refuse s t _).keeps
  · refine .ite (fun _ => (calm_deny s t _ _).keeps) fun _ =>
      .ite (fun _ => (calm_deny s t _ _).keeps) fun notOther => ?_
    split
    · exact (calm_refuse s t _).keeps
    · exact (calm_refuse s t _).keeps
    · have own : ∀ b ∈ (s.queue q).bound, b = t := fun b bound => by
        by_contra other
        exact notOther (boundToOther_iff.mpr ⟨b, bound, other⟩)
      exact (keeps_receiveSearch wait own _ _ _).calm (calm_reckonStoreEmpty _ s)

end Receive

/-! ### The Queue Table's commands of the supervisor (sections 2.5, 2.6, 8.4) -/

section Supervisor

variable {s : State}

theorem keeps_queueOpen (blocked : BlockedLaw s) (q : QueueId) : Keeps s (queueOpen s q) := by
  refine .ite (fun _ => (Calm.of_same).keeps) fun closed =>
    .ite (fun _ => (Calm.of_same).keeps) fun _ => .ite (fun _ => (Calm.of_same).keeps) fun _ => ?_
  have closed : (s.queue q).state = .closed := not_not.mp closed
  have nobody := untargeted_of_not_opened blocked (q := q) fun lim opened => by
    simp [closed] at opened
  set k := openedQueue _ _ _ with record
  have opens : Calm s (s.setQueue q k) := by
    refine ⟨.of_untargeted rfl rfl nobody nofun nofun nofun ?_, .of_queue rfl nofun⟩
    have sum := Table.sum_set s.queues q k Queue.unusedReserve
    have none : (s.queue q).unusedReserve = 0 := Queue.unusedReserve_of_closed closed
    rw [State.queue] at none
    rw [State.unreserved, State.unreserved, setQueue_freeCount, setQueue_queues]
    omega
  exact (Calm.after (calm_reckonStoreEmpty _ s)
    (.after (u := s.setQueue q k) .of_same opens)).keeps

theorem keeps_queueClose (wait : WaitLaw s) (blocked : BlockedLaw s) (q : QueueId) :
    Keeps s (queueClose s q) := by
  unfold queueClose
  split
  · exact (Calm.of_same).keeps
  · next lim b purging =>
    have nobody := untargeted_of_not_opened blocked (q := q) fun lim opened => by
      simp [purging] at opened
    have marked : Calm s (s.setQueue q { s.queue q with state := .purging lim true }) := by
      refine calm_setQueue_state nobody ?_
      rw [Queue.unusedReserve_of_purging purging, Queue.unusedReserve_of_purging rfl]
      rfl
    exact (Calm.after .of_same marked).keeps
  · next lim opened =>
    have ended := calm_endWaiters s q .closed
    have nobody := endWaiters_untargeted (q := q) wait .closed
    have notPurging := endWaiters_notPurging .closed opened
    have closed : Keeps s (closeOpened (endWaiters s q .closed) q lim) := by
      refine .ite (fun _ => ?_) fun _ => (Calm.after (calm_startPurge nobody ?_ true) ended).keeps
      · exact ((frees_closeRecord nobody).after ended.frees).admissionPass
          (easing_closeRecord (easing_endWaiters wait q .closed).wait notPurging).wait
      · rw [endWaiters_queue_self]
        exact opened
    exact (closed.calm .of_same).calm (calm_reckonStoreEmpty _ s)

theorem keeps_queuePurge (wait : WaitLaw s) (q : QueueId) : Keeps s (queuePurge s q) := by
  unfold queuePurge
  split
  · exact (Calm.of_same).keeps
  · exact (Calm.of_same).keeps
  · next lim opened =>
    have ended := calm_endWaiters s q .purging
    have nobody := endWaiters_untargeted (q := q) wait .purging
    refine .ite (fun _ => (ended.keeps).calm .of_same) fun _ => ?_
    refine (Keeps.calm (Calm.after (calm_startPurge nobody ?_ false) ended).keeps .of_same)
    rw [endWaiters_queue_self]
    exact opened

theorem keeps_purgeStep (wait : WaitLaw s) (blocked : BlockedLaw s) : Keeps s (purgeStep s) := by
  unfold purgeStep
  split
  · next q _ =>
    split
    · next lim closeAfter purging =>
      have nobody := untargeted_of_not_opened blocked (q := q) fun lim opened => by
        simp [purging] at opened
      have discarded := frees_discardHead (s := s) (q := q)
      have easing := easing_discardHead wait q
      have nobody' : ∀ a, ∀ x ∈ ((discardHead s q).agent a).awaitedSend, x.1 ≠ q :=
        fun a x sends => nobody a x ((discarded.queues.agents a).sends x sends)
      have purged : Keeps s (purgeQueue s q lim closeAfter) := by
        refine .ite (fun _ => ?_) fun _ => discarded.admissionPass easing.wait
        obtain ⟨k, ended, receivers, -⟩ := endPurge_eq (discardHead s q) q lim closeAfter
        exact Keeps.calm (((frees_endPurge nobody' lim closeAfter).after discarded).admissionPass
          (ended ▸ waitLaw_setQueue easing.wait q k receivers)) (calm_endJob _)
      exact purged.calm (calm_reckonStoreEmpty _ s)
    · exact (Calm.refl s).keeps
  · exact (Calm.refl s).keeps

end Supervisor

end Sys2Proof.Machine

/-! DETACH, RETIRE, the two sweeps, CLEAR and RESET, which take locks and bindings from agents, and with them every command: the invariant of the part (R106, R136, R138, R140, R155, R163). -/

namespace Sys2Proof.Machine

/-- The laws of the queues, and those of the holders where one job stands for each RETIRING agent. -/
structure LawsAfter (s : State) : Prop where
  queues : QueueLaws s
  holders : JobLaw s → HolderLaws s

section LawsAfter

variable {s s' : State}

theorem Keeps.lawsAfter (keeps : Keeps s s') (queues : QueueLaws s) (holders : HolderLaws s) :
    LawsAfter s' :=
  ⟨keeps.queues queues, keeps.holders.holderLaws holders⟩

theorem Calm.lawsAfter (calm : Calm s s') (queues : QueueLaws s) (holders : HolderLaws s) :
    LawsAfter s' :=
  calm.keeps.lawsAfter queues holders

end LawsAfter

/-! ### DETACH (R112) -/

section Detach

variable {s : State} {t : Agent}

/-- One context changes and does not wait after it. -/
theorem queuesCalm_setAgent_idle (s : State) (a : Agent) {c : AgentCtx}
    (idle : c.port.isWaiting = false) : QueuesCalm s (s.setAgent a c) := by
  refine .of_quiets (fun x => ?_) (fun _ => .refl _) rfl
  rw [setAgent_agent]
  split
  · exact .of_idle idle
  · exact .of_port rfl

/-- The agent that DETACHes holds no lock, and its bindings go. -/
theorem lawsAfter_detach (queues : QueueLaws s) (holders : HolderLaws s) :
    LawsAfter (detach s t) := by
  unfold detach
  split
  · exact (calm_refuse s t _).lawsAfter queues holders
  · next notHolding =>
    have notHolder : ∀ l, ∀ h ∈ (s.lock l).hold, h.holder ≠ t := fun l h held own =>
      notHolding (holdsAnyLock_iff.mpr ⟨l, h, held, own⟩)
    set u := (s.dropBindings t).setAgent t (s.agent t).detach with left
    have agent : ∀ a, u.agent a = if a = t then (s.agent t).detach else s.agent a :=
      setAgent_agent (s.dropBindings t) t _
    have bound : ∀ q, ∀ b ∈ (u.queue q).bound, b ∈ (s.queue q).bound ∧ b ≠ t := by
      intro q b mem
      rw [left, setAgent_queue, dropBindings_queue] at mem
      dsimp only at mem
      split at mem
      · cases mem
      · next other => exact ⟨mem, fun self => other (self ▸ mem)⟩
    have calm : QueuesCalm s u :=
      (queuesCalm_setAgent_idle _ t rfl).after (queuesCalm_dropBindings s t)
    obtain ⟨sweep, detached⟩ := holders
    obtain ⟨locks, bindings⟩ := sweep
    obtain ⟨holders, boundTo, watches⟩ := detached
    have laws : HolderLaws u := by
      refine ⟨⟨locks, fun q b mem => bindings q b (bound q b mem).1⟩, fun l h held => ?_,
        fun q b mem => ?_, fun a inactive => ?_⟩
      · rw [agent, if_neg (notHolder l h held)]
        exact holders l h held
      · obtain ⟨mem, other⟩ := bound q b mem
        rw [agent, if_neg other]
        exact boundTo q b mem
      · rw [agent] at inactive ⊢
        split
        · rfl
        · next other => exact watches a (by rwa [if_neg other] at inactive)
    exact (calm_done u t _).lawsAfter (calm.queueLaws queues) laws

end Detach

/-! ### RETIRE (R134, R135) -/

section Retire

variable (s : State) (a : Agent)

theorem leaveWaitList_hold (l : LockId) :
    ((s.leaveWaitList a).lock l).hold = (s.lock l).hold := by
  unfold State.leaveWaitList
  split
  · split
    · rw [setLock_lock]
      split
      · next self => rw [self]
      · rfl
    · rfl
    · rfl
  · rfl

theorem leaveWaitList_bound (q : QueueId) :
    ((s.leaveWaitList a).queue q).bound = (s.queue q).bound := by
  unfold State.leaveWaitList
  split
  · split
    · rfl
    · rfl
    · rw [setQueue_queue]
      split
      · next self => rw [self]
      · rfl
  · rfl

variable {s}

theorem acceptRetire_queueLaws (laws : QueueLaws s) : QueueLaws (acceptRetire s a) := by
  have joins := calm_addJob ((s.leaveWaitList a).setAgent a (s.agent a).retire) (.retire a)
  have retires : QueuesCalm (s.leaveWaitList a) _ :=
    queuesCalm_setAgent_idle (s.leaveWaitList a) a (c := (s.agent a).retire) rfl
  exact (joins.queues.after (retires.after (calm_leaveWaitList s a).queues)).queueLaws laws

/-- The agent keeps its locks and bindings while its job sweeps them, and the sweep of it has passed none yet. -/
theorem acceptRetire_holderLaws (laws : HolderLaws s) : HolderLaws (acceptRetire s a) := by
  have left := (calm_leaveWaitList s a).holders
  have joins := (calm_addJob ((s.leaveWaitList a).setAgent a (s.agent a).retire)
    (.retire a)).holders
  have hold : ∀ l, ((acceptRetire s a).lock l).hold = (s.lock l).hold := leaveWaitList_hold s a
  have bound : ∀ q, ((acceptRetire s a).queue q).bound = (s.queue q).bound :=
    leaveWaitList_bound s a
  have agent : ∀ x, (acceptRetire s a).agent x =
      if x = a then (s.agent a).retire else s.agent x := fun x => by
    rw [← leaveWaitList_agent s a x]
    exact setAgent_agent _ a _ x
  have notDetached : ∀ x, (s.agent x).port ≠ .detached →
      ((acceptRetire s a).agent x).port ≠ .detached := fun x attached => by
    rw [agent]
    split
    · nofun
    · exact attached
  obtain ⟨⟨locks, bindings⟩, holders, boundTo, watches⟩ := laws
  refine ⟨⟨fun l h held => ?_, fun q b mem => ?_⟩, fun l h held => ?_, fun q b mem => ?_,
    fun x inactive => ?_⟩
  · rw [hold] at held
    rw [Bool.eq_false_iff]
    intro passed
    simpa [left.passedLock _ l (joins.passedLock _ l passed)] using locks l h held
  · rw [bound] at mem
    rw [Bool.eq_false_iff]
    intro passed
    simpa [left.passedQueue _ q (joins.passedQueue _ q passed)] using bindings q b mem
  · exact notDetached _ (holders l h (hold l ▸ held))
  · exact notDetached b (boundTo q b (bound q ▸ mem))
  · rw [agent] at inactive ⊢
    split
    · rfl
    · next other => exact watches x (by rwa [if_neg other] at inactive)

theorem lawsAfter_retire (queues : QueueLaws s) (holders : HolderLaws s) :
    LawsAfter (retire s a) := by
  have accepted : LawsAfter ((acceptRetire s a).supResult .done) :=
    Calm.lawsAfter .of_same (acceptRetire_queueLaws a queues) (acceptRetire_holderLaws a holders)
  unfold retire
  split
  · exact Calm.lawsAfter .of_same queues holders
  · exact Calm.lawsAfter .of_same queues holders
  · exact accepted
  · exact accepted

end Retire

/-! ### The sweeps (R136, R138, R140) -/

/-- After a lock has passed, its holder is the head waiter, which is ATTACHED. -/
theorem passLock_holder_active (s : State) (l : LockId) (lost : Bool) :
    ∀ h ∈ ((passLock s l lost).lock l).hold,
      ((passLock s l lost).agent h.holder).port.active = true := by
  intro h held
  cases queue : (s.lock l).waiters with
  | nil =>
    rw [passLock_nobody s l lost queue, setLock_lock_self] at held
    cases held
  | cons w rest =>
    rw [passLock_head s l lost queue, endWait_eq] at held ⊢
    rw [setAgent_lock, setLock_lock_self] at held
    obtain rfl := Option.some.inj held
    rw [Lock.grantTo, setAgent_agent_self]
    rfl

theorem afterLock_passedLock {r a : Agent} {c l : LockId}
    (passed : (afterLock r c).passedLock a l = true) : a = r ∧ l ≤ c := by
  unfold afterLock at passed
  split at passed
  · next more =>
    simp only [EngineState.passedLock, Bool.and_eq_true, beq_iff_eq, decide_eq_true_eq] at passed
    obtain ⟨own, below⟩ := passed
    exact ⟨own.symm, Nat.le_of_lt_succ below⟩
  · next last =>
    simp only [EngineState.passedLock, beq_iff_eq] at passed
    exact ⟨passed.symm, Fin.le_def.mpr (by omega)⟩

theorem afterLock_passedQueue (r a : Agent) (c : LockId) (q : QueueId) :
    (afterLock r c).passedQueue a q = false := by
  unfold afterLock
  split <;> simp [EngineState.passedQueue]

/-- The end of a retirement leaves the agent neither a lock nor a binding, for the sweeps have passed them all (R140). -/
theorem endRetirement_holderLaws {u : State} {r : Agent} (law : DetachedLaw u)
    (notHolder : ∀ l, ∀ h ∈ (u.lock l).hold, h.holder ≠ r)
    (notBound : ∀ q, ∀ b ∈ (u.queue q).bound, b ≠ r) : HolderLaws (endRetirement u r) := by
  have start : (endRetirement u r).engine.state = engineStart u.engine.jobs.tail := rfl
  have port : ∀ a, a ≠ r → ((endRetirement u r).agent a).port = (u.agent a).port ∧
      ((endRetirement u r).agent a).watch = (u.agent a).watch := fun a other => by
    rw [endRetirement_agent, if_neg other]
    exact ⟨rfl, rfl⟩
  obtain ⟨holding, boundTo, watches⟩ := law
  refine ⟨⟨fun l h _ => ?_, fun q b _ => ?_⟩, fun l h held => ?_, fun q b mem => ?_,
    fun a inactive => ?_⟩
  · rw [start, (engineStart_passed _ _).1]
  · rw [start, (engineStart_passed _ _).2]
  · rw [(port _ (notHolder l h held)).1]
    exact holding l h held
  · rw [(port b (notBound q b mem)).1]
    exact boundTo q b mem
  · by_cases self : a = r
    · rw [endRetirement_agent, if_pos self]
      rfl
    · rw [(port a self).1] at inactive
      rw [(port a self).2]
      exact watches a inactive

section Sweeps

variable {s : State} (queues : QueueLaws s) (holders : HolderLaws s)
include queues holders

/-- The lock that the sweep passes is not the retiring agent's any more (R136). -/
theorem lawsAfter_lockSweepStep : LawsAfter (lockSweepStep s) := by
  cases state : s.engine.state with
  | retireLocks r c =>
    rw [lockSweepStep_eq state]
    set u := if (s.lock c).hold.any (fun h => h.holder == r) then loseLock s c else s with swept
    have calm : Calm s u := .ite (fun _ => calm_passLock s c true) fun _ => .refl s
    have taken : ∀ h ∈ (u.lock c).hold, h.holder = r → (u.agent r).port.active = true := by
      rw [swept]
      split
      · rintro h held rfl
        exact passLock_holder_active s c true h held
      · next notHeld =>
        intro h held own
        rw [Option.any_eq_true] at notHeld
        exact absurd ⟨h, held, by simpa using own⟩ notHeld
    have moved : QueuesCalm u (u.setEngine (afterLock r c)) :=
      .of_quiets (fun _ => .of_port rfl) (fun _ => .refl _) rfl
    refine ⟨(moved.after calm.queues).queueLaws queues, fun jobs => ?_⟩
    have detached : DetachedLaw (u.setEngine (afterLock r c)) :=
      calm.holders.detachedLaw holders.detached
    have retires : ∀ a l, (afterLock r c).passedLock a l = true →
        (u.agent a).port.active ≠ true := fun a l passed =>
      retiring_not_active (retiring_of_job jobs (EngineState.job_of_passedLock passed))
    obtain ⟨locks, -⟩ := holders.sweep
    refine ⟨⟨fun l h held => ?_, fun q b _ => afterLock_passedQueue r b c q⟩, detached⟩
    rw [Bool.eq_false_iff]
    intro passed
    have inactive := retires _ l passed
    obtain ⟨own, upTo⟩ := afterLock_passedLock passed
    rcases upTo.lt_or_eq with before | rfl
    · rcases calm.holders.holder l h held with ⟨h₀, held₀, same⟩ | active
      · have notPassed := locks l h₀ held₀
        rw [same, own, state] at notPassed
        simp [EngineState.passedLock, before] at notPassed
      · exact inactive active
    · exact inactive (own ▸ taken h held own)
  | _ =>
    rw [lockSweepStep_not_called (by simp [state])]
    exact (Calm.refl s).lawsAfter queues holders

/-- The queue that the sweep passes is not bound to the retiring agent any more, and behind the last one the retirement ends (R138, R140). -/
theorem lawsAfter_queueSweepStep : LawsAfter (queueSweepStep s) := by
  cases state : s.engine.state with
  | retireQueues r c =>
    obtain ⟨locks, bindings⟩ := holders.sweep
    have calm : Calm s (s.sweptQueue r c) := by
      rw [sweptQueue_eq]
      exact .ite (fun _ => calm_setQueue s c _ { bound := nofun } nofun) fun _ => .refl s
    have notHolder : ∀ l, ∀ h ∈ (s.lock l).hold, h.holder ≠ r := by
      rintro l h held rfl
      simpa [state, EngineState.passedLock] using locks l h held
    have bound : ∀ q, ∀ b ∈ ((s.sweptQueue r c).queue q).bound,
        b ∈ (s.queue q).bound ∧ (q ≤ c → b ≠ r) := by
      intro q b mem
      rw [State.sweptQueue, setQueue_queue] at mem
      split at mem
      · next self =>
        dsimp only at mem
        split at mem
        · cases mem
        · next other => exact ⟨self ▸ mem, fun _ own => other (own ▸ mem)⟩
      · next elsewhere =>
        refine ⟨mem, fun upTo => ?_⟩
        rintro rfl
        have before : q < c := lt_of_le_of_ne upTo elsewhere
        simpa [state, EngineState.passedQueue, before] using bindings q b mem
    cases cursor : nextCursor c with
    | none =>
      have last : ∀ q : QueueId, q ≤ c := fun q => by
        have none : ¬ c.val + 1 < 32 := fun more => by simp [nextCursor, more] at cursor
        exact Fin.le_def.mpr (by omega)
      rw [queueSweepStep_last state cursor]
      have ends : QueuesCalm (s.sweptQueue r c) (endRetirement (s.sweptQueue r c) r) :=
        (calm_endJob _).queues.after (queuesCalm_setAgent_idle _ r rfl)
      exact ⟨(ends.after calm.queues).queueLaws queues,
        fun _ => endRetirement_holderLaws (calm.holders.detachedLaw holders.detached) notHolder
          fun q b mem => (bound q b mem).2 (last q)⟩
    | some c' =>
      have next : c'.val = c.val + 1 := by
        unfold nextCursor at cursor
        split at cursor
        · rw [← Option.some.inj cursor]
        · cases cursor
      rw [queueSweepStep_below state next]
      have moved : QueuesCalm (s.sweptQueue r c)
          ((s.sweptQueue r c).setEngine (.retireQueues r c')) :=
        .of_quiets (fun _ => .of_port rfl) (fun _ => .refl _) rfl
      have detached : DetachedLaw ((s.sweptQueue r c).setEngine (.retireQueues r c')) :=
        calm.holders.detachedLaw holders.detached
      refine ⟨(moved.after calm.queues).queueLaws queues, fun _ =>
        ⟨⟨fun l h held => ?_, fun q b mem => ?_⟩, detached⟩⟩
      · have other := notHolder l h held
        simpa [State.setEngine, EngineState.passedLock] using Ne.symm other
      · rw [Bool.eq_false_iff]
        intro passed
        simp only [State.setEngine, EngineState.passedQueue, Bool.and_eq_true, beq_iff_eq,
          decide_eq_true_eq] at passed
        obtain ⟨own, before⟩ := passed
        have upTo : q ≤ c := Fin.le_def.mpr (by have := Fin.lt_def.mp before; omega)
        exact (bound q b mem).2 upTo own.symm
  | _ =>
    rw [queueSweepStep_not_called (by simp [state])]
    exact (Calm.refl s).lawsAfter queues holders

end Sweeps

/-! ### CLEAR and RESET (R155, R163) -/

/-- Where no agent waits, no queue has a waiter or a binding and no lock is held, both groups hold. -/
theorem lawsAfter_of_nobody {s : State} (idle : ∀ a, s.waits a = false)
    (free : ∀ l, (s.lock l).hold = none) (queue : ∀ q, s.queue q = .initial)
    (watch : ∀ a, (s.agent a).watch = .all 4 none) : LawsAfter s := by
  have noSend : ∀ a, (s.agent a).awaitedSend = none := fun a => (awaits_nothing (idle a)).2.1
  have noDeadline : ∀ a, (s.agent a).deadline = none := fun a => by
    cases port : (s.agent a).port with
    | waiting w => simpa [waits_of_port port] using idle a
    | _ => simp [AgentCtx.deadline, port]
  refine ⟨⟨fun a x sends => ?_, fun a d due => ?_, fun q r mem => ?_, fun a x sends => ?_,
    fun q b mem => ?_⟩, fun _ => ⟨⟨fun l h held => ?_, fun q b mem => ?_⟩, fun l h held => ?_,
    fun q b mem => ?_, fun a _ => watch a⟩⟩
  · simp [noSend] at sends
  · simp [noDeadline] at due
  · simp [queue] at mem
  · simp [noSend] at sends
  · simp [queue] at mem
  · simp [free] at held
  · simp [queue] at mem
  · simp [free] at held
  · simp [queue] at mem

theorem lawsAfter_clearPart (s : State) : LawsAfter (clearPart s) := by
  refine lawsAfter_of_nobody (fun a => ?_) (fun l => ?_) (clearPart_queue s) fun a => ?_
  · rw [State.waits, clearPart_agent]
    rfl
  · rw [clearPart_lock]
    rfl
  · rw [clearPart_agent]
    rfl

theorem lawsAfter_enterReset (s : State) : LawsAfter (enterReset s) := by
  refine lawsAfter_of_nobody (fun a => ?_) (fun l => ?_) (enterReset_queue s) fun a => ?_
  · rw [State.waits, enterReset_agent]
    rfl
  · rw [enterReset_lock]
    rfl
  · rw [enterReset_agent]
    rfl

/-! ### Every command -/

section EveryCommand

variable {s : State} (lawful : Lawful s)
include lawful

theorem Lawful.queueLaws : QueueLaws s :=
  ⟨lawful.blocked, lawful.deadlines, lawful.noMatch, lawful.noRoom, lawful.bound⟩

theorem Lawful.holderLaws : HolderLaws s :=
  ⟨lawful.sweep, lawful.detached⟩

theorem Lawful.after_keeps {s' : State} (keeps : Keeps s s') : LawsAfter s' :=
  keeps.lawsAfter lawful.queueLaws lawful.holderLaws

theorem Lawful.after_calm {s' : State} (calm : Calm s s') : LawsAfter s' :=
  lawful.after_keeps calm.keeps

theorem lawsAfter_command (t : Agent) (c : AgentCmd) :
    LawsAfter (effectOf (c.command t) s) := by
  have refused : ∀ code, LawsAfter (s.refuse t code) := fun code =>
    lawful.after_calm (calm_refuse s t code)
  rw [effectOf_command]
  rcases acceptCommand_cases s t (some c) (ownerOf t c) with ⟨code, eq⟩ | ⟨passed, eq⟩
  · exact eq ▸ refused code
  rw [eq]
  have attached : c ≠ .attach → c ≠ .cancel → (s.agent t).port = .attached := fun attach cancel =>
    attached_of_portCheck attach cancel passed
  cases c with
  | attach => exact lawful.after_calm (calm_attach s t)
  | detach => exact lawsAfter_detach lawful.queueLaws lawful.holderLaws
  | cancel => exact lawful.after_calm (calm_cancel s t)
  | acquire =>
    exact withLock_induct (refused _) fun l =>
      lawful.after_calm (calm_acquire (attached nofun nofun) l)
  | release => exact withLock_induct (refused _) fun l => lawful.after_calm (calm_release s t l)
  | renew => exact withLock_induct (refused _) fun l => lawful.after_calm (calm_renew s t l)
  | send => exact withQueue_induct (refused _) fun q => lawful.after_keeps (keeps_send t q)
  | receive =>
    exact withQueue_induct (refused _) fun q => lawful.after_keeps (keeps_receive lawful.wait t q)
  | bind =>
    exact withQueue_induct (refused _) fun q =>
      lawful.after_calm (calm_bindQueue (attached nofun nofun) q)
  | unbind =>
    exact withQueue_induct (refused _) fun q => lawful.after_calm (calm_unbindQueue s t q)
  | watch =>
    exact withQueue_induct (refused _) fun q =>
      lawful.after_calm (calm_watchQueue (attached nofun nofun) q)
  | unwatch =>
    exact withQueue_induct (refused _) fun q =>
      lawful.after_calm (calm_unwatchQueue (attached nofun nofun) q)

theorem lawsAfter_supervisorCommand (c : SupCmd) : LawsAfter (effectOf c.command s) := by
  have refused : LawsAfter (s.supResult .badObject) := lawful.after_calm .of_same
  cases c with
  | lockConfig =>
    exact withSupObject_induct refused fun l => lawful.after_calm (calm_lockConfig s l)
  | queueOpen =>
    exact withSupObject_induct refused fun q => lawful.after_keeps (keeps_queueOpen lawful.blocked q)
  | queueClose =>
    exact withSupObject_induct refused fun q =>
      lawful.after_keeps (keeps_queueClose lawful.wait lawful.blocked q)
  | queuePurge =>
    exact withSupObject_induct refused fun q => lawful.after_keeps (keeps_queuePurge lawful.wait q)
  | retire =>
    exact withSupObject_induct refused fun a =>
      lawsAfter_retire a lawful.queueLaws lawful.holderLaws
  | quiesce | resume | ackViolation => exact lawful.after_calm .of_same
  | clear => exact lawsAfter_clearPart s

theorem lawsAfter_writeCmd (t : Agent) (code : Word) : LawsAfter (writeCmd s t code) := by
  cases known : AgentCmd.ofCode code with
  | none =>
    rw [writeCmd_unknown known]
    exact lawful.after_calm (acceptCommand_induct (calm_refuse s t) (.refl s))
  | some c =>
    rw [writeCmd_known known]
    exact lawsAfter_command lawful t c

theorem lawsAfter_writeScmd (code : Word) : LawsAfter (writeScmd s code) := by
  cases known : SupCmd.ofCode code with
  | none =>
    rw [writeScmd_unknown known]
    exact lawful.after_calm .of_same
  | some c =>
    rw [writeScmd_known known]
    exact lawsAfter_supervisorCommand lawful c

theorem lawsAfter_busWrite (t : Agent) (off : Offset) (v : Word) :
    LawsAfter (busWrite s t off v) := by
  unfold busWrite
  split
  · split
    · by_cases scmd : SupReg.ofOffset off = .scmd
      · rw [scmd]
        exact lawsAfter_writeScmd lawful v
      · exact lawful.after_calm (calm_writeSupReg s v scmd)
    · exact lawful.after_calm (calm_recordViolation s t _)
  · by_cases cmd : AgentReg.ofOffset off = .cmd
    · rw [cmd]
      exact lawsAfter_writeCmd lawful t v
    · exact lawful.after_calm (calm_writeAgentReg s t v cmd)

theorem lawsAfter_effectOf (c : Instr) : LawsAfter (effectOf c s) := by
  have calm : ∀ {s'}, Calm s s' → LawsAfter s' := lawful.after_calm
  cases c with
  | attach t => exact lawsAfter_command lawful t .attach
  | detach t => exact lawsAfter_command lawful t .detach
  | cancel t => exact lawsAfter_command lawful t .cancel
  | acquire t => exact lawsAfter_command lawful t .acquire
  | release t => exact lawsAfter_command lawful t .release
  | renew t => exact lawsAfter_command lawful t .renew
  | send t => exact lawsAfter_command lawful t .send
  | receive t => exact lawsAfter_command lawful t .receive
  | bind t => exact lawsAfter_command lawful t .bind
  | unbind t => exact lawsAfter_command lawful t .unbind
  | watch t => exact lawsAfter_command lawful t .watch
  | unwatch t => exact lawsAfter_command lawful t .unwatch
  | lockConfig => exact lawsAfter_supervisorCommand lawful .lockConfig
  | queueOpen => exact lawsAfter_supervisorCommand lawful .queueOpen
  | queueClose => exact lawsAfter_supervisorCommand lawful .queueClose
  | queuePurge => exact lawsAfter_supervisorCommand lawful .queuePurge
  | retire => exact lawsAfter_supervisorCommand lawful .retire
  | clear => exact lawsAfter_clearPart s
  | reset => exact lawsAfter_enterReset s
  | quiesce | resume | ackViolation | tickdivWrite | freezeAssert | freezeRelease =>
    exact calm .of_same
  | noteRead t | nenWrite t _ | tickloRead t | tickhiRead t => exact calm (calm_setAgent s t _)
  | supervisorPageWriteDenied t off v | registerWrite t off v =>
    exact lawsAfter_busWrite lawful t off v
  | unknownAgentCommandCode t code => exact lawsAfter_writeCmd lawful t code
  | unknownSupervisorCommandCode code => exact lawsAfter_writeScmd lawful code
  | resetRelease straps => exact calm (calm_releaseReset s straps)
  | tick | refclkPeriodCounted => exact calm (calm_timeEvent s _)
  | leaseCountdown => exact calm (calm_lockTableTick s)
  | leaseExpiry l => exact calm (.ite (fun _ => calm_lockTableTick s) fun _ => .refl s)
  | deadlineCountdown => exact calm (calm_agentPortsTick s)
  | deadlineExpiry a => exact calm (.ite (fun _ => calm_agentPortsTick s) fun _ => .refl s)
  | lockSweepStep => exact lawsAfter_lockSweepStep lawful.queueLaws lawful.holderLaws
  | queueSweepStep => exact lawsAfter_queueSweepStep lawful.queueLaws lawful.holderLaws
  | purgeStep => exact lawful.after_keeps (keeps_purgeStep lawful.wait lawful.blocked)

end EveryCommand

section Lawful

variable {s s' : State} {c : Instr}

/-- The two groups of laws do not read the bus. -/
theorem LawsAfter.answerCycle (laws : LawsAfter s) (data : Option Word) :
    LawsAfter (s.answerCycle data) := by
  have calm : Calm s (s.answerCycle data) := .of_same
  exact ⟨calm.queues.queueLaws laws.queues,
    fun jobs => calm.holders.holderLaws (laws.holders jobs) jobs⟩

theorem exec_lawsAfter (lawful : Lawful s) (run : exec c s = .next s') : LawsAfter s' := by
  have effect := lawsAfter_effectOf lawful c
  cases exec_ending run with
  | dropped => exact lawful.after_calm (.refl s)
  | unanswered => exact lawful.after_calm .of_same
  | taken => exact effect
  | answered data => exact effect.answerCycle data

/-- Every command keeps all the laws. -/
theorem exec_keeps_lawful (lawful : Lawful s) (run : exec c s = .next s') : Lawful s' := by
  have locks := exec_lockEvent run
  have store := exec_storeEvent run
  have timed := exec_timedChange run
  obtain ⟨queues, slots⟩ := store.storeLaws lawful.queues lawful.store
  obtain ⟨wait, jobs⟩ := exec_keeps_partyLaws lawful.queues lawful.wait lawful.jobs run
  obtain ⟨⟨blocked, deadlines, noMatch, noRoom, bound⟩, holders⟩ := exec_lawsAfter lawful run
  obtain ⟨sweep, detached⟩ := holders jobs
  exact
    { locks := locks.locksLawful lawful.locks
      queues := queues
      store := slots
      order := store.orderLaw lawful.order
      wait := wait
      blocked := blocked
      deadlines := deadlines
      noCircle := locks.noCircle lawful.noCircle
      noMatch := noMatch
      noRoom := noRoom
      bound := bound
      jobs := jobs
      sweep := sweep
      detached := detached
      notices := timed.noticeLaw lawful.reset lawful.notices
      time := timed.timeLaw lawful.time
      reset := exec_keeps_resetLaw lawful.reset run
      bus := (exec_outside run).bus lawful.bus }

/-- No law reads the queue of commands, nor more of the bus than what it drives at the end. -/
theorem Lawful.of_outside (lawful : Lawful s) (bus : BusLaw s')
    (same : s' = { s with bus := s'.bus, pending := s'.pending }) : Lawful s' := by
  have noCircle : NoCircle s' :=
    Unblocking.noCircle (.of_same (by rw [same]) (by rw [same])) lawful.noCircle
  rw [same] at noCircle bus ⊢
  exact { lawful with noCircle := noCircle, bus := bus }

/-! ### Reads (R158, R161) -/

theorem Lawful.cycle (lawful : Lawful s) (answer : List BusLevels) : Lawful (s.cycle answer) :=
  lawful.of_outside (cycle_busLaw answer) rfl

/-- A read of NOTE, TICKLO or TICKHI is the command of its row, at whichever of its two offsets. -/
theorem registerRead_eq_exec {t : Agent} {off : Offset}
    (page : Offset.supervisorPage off = false) :
    (AgentReg.ofOffset off = .note → registerRead t off s = exec (.noteRead t) s) ∧
    (AgentReg.ofOffset off = .ticklo → registerRead t off s = exec (.tickloRead t) s) ∧
    (AgentReg.ofOffset off = .tickhi → registerRead t off s = exec (.tickhiRead t) s) := by
  refine ⟨fun reg => ?_, fun reg => ?_, fun reg => ?_⟩ <;>
    simp only [registerRead_eq, exec_noteRead, exec_tickloRead, exec_tickhiRead, readCycle,
      State.readReg, busRead, page, reg, readAgentReg, readAgentEffect, Bool.false_eq_true, if_false]

/-- Every other read changes the record of the bus alone. -/
theorem registerRead_keeps_lawful {t : Agent} {off : Offset} (lawful : Lawful s)
    (run : registerRead t off s = .next s') : Lawful s' := by
  have plain : busRead s t off = s → Lawful s' := fun stays => by
    rcases readCycle_next run with rfl | rfl
    · exact lawful.cycle []
    · rw [stays]
      exact lawful.cycle _
  cases page : Offset.supervisorPage off with
  | true => exact plain (if_pos page)
  | false =>
    obtain ⟨note, ticklo, tickhi⟩ := registerRead_eq_exec (s := s) (t := t) page
    have agentPage : busRead s t off = readAgentEffect s t (AgentReg.ofOffset off) :=
      if_neg (by simp [page])
    cases reg : AgentReg.ofOffset off with
    | note => exact exec_keeps_lawful lawful ((note reg).symm.trans run)
    | ticklo => exact exec_keeps_lawful lawful ((ticklo reg).symm.trans run)
    | tickhi => exact exec_keeps_lawful lawful ((tickhi reg).symm.trans run)
    | _ => exact plain (by rw [agentPage, reg]; rfl)

end Lawful

/-- Settles O60: every command keeps the laws, and a read is a command or changes the record of the bus alone. -/
theorem everyStepKeepsEveryLaw : Obligations.EveryStepKeepsEveryLaw :=
  ⟨fun _ _ lawful run => step_keeps_of_exec
      (fun _ _ lawful => lawful.of_outside lawful.bus rfl)
      (fun _ _ _ lawful run => exec_keeps_lawful lawful run) lawful run,
    fun _ _ _ _ lawful run => registerRead_keeps_lawful lawful run⟩

end Sys2Proof.Machine
